-- ==== Sys2Proof/Word.lean ====
section
/-! DEFINITION. The word types of the LW4-32 (spec/00_scope.md section 5.2; spec/11 section 11.1). -/

namespace Sys2Proof

/-- A 32-bit word: one beat of data, one word of a payload. -/
abbrev Word := BitVec 32

/-- One byte lane of an SRAM word. -/
abbrev Byte := BitVec 8

/-- A word address of a port address space, 0 to 4,194,303. -/
abbrev PortAddr := BitVec 22

/-- A word address of the SRAM, 0 to 1,048,575. -/
abbrev SramAddr := BitVec 20

/-- A set of byte lanes: bit n is lane n. -/
abbrev LaneSet := BitVec 4

/-- A set of rights, or a ceiling: bit 0 READ, bit 1 WRITE. -/
abbrev Rights := BitVec 2

/-- A set of ports: bit 0 A, bit 1 B, bit 2 C, bit 3 D. -/
abbrev PortSet := BitVec 4

/-- A duration code, a renew budget or a refusal code, 0 to 15. -/
abbrev Code := BitVec 4

/-- A request tag, 0 to 15. -/
abbrev Tag := BitVec 4

/-- Lease time: a 32-bit count of lease ticks, modulo 2^32. -/
abbrev LeaseTime := BitVec 32

/-- A window index, 0 to 31. -/
abbrev WinIdx := Fin 32

/-- The content of a management register, or what is shifted into it: at most 160 bits, the first bit
shifted being the most significant of the register's own length (spec/10 R166; spec/11 section 11.3). -/
abbrev Payload := BitVec 160

end Sys2Proof
end

