-- ==== Sys2Proof/Syntax.lean ====
section
/-! DEFINITION. The commands: one constructor of `Instr` for each row of spec/opcode_table.json. -/

namespace Sys2Proof

/-- A requester port. -/
inductive Port where
  | a | b | c | d
  deriving DecidableEq, Repr

/-- The kind of an access (R1). -/
inductive AccessKind where
  | read | write
  deriving DecidableEq, Repr

/-- An access as offered at a port (R1). The port is given by the bus it is offered on. -/
structure Access where
  /-- READ or WRITE -/
  kind : AccessKind
  /-- word address of the first beat -/
  address : PortAddr
  /-- number of words in the burst -/
  beats : Nat
  /-- one lane set for each beat -/
  lanes : List LaneSet
  deriving DecidableEq, Repr

/-- What can fall together in one LCLK period: the lease tick, the data deadline of the entry at a place
(0 the oldest) of a port's pending list, and a grant decision between them (log 4). -/
inductive LclkPart where
  | tick
  | deadline (p : Port) (place : Nat)
  | grant
  deriving DecidableEq, Repr

/-- The order in which a port reset discards the entries of its pending list (log 5). -/
inductive DiscardOrder where
  | oldestFirst | youngestFirst
  deriving DecidableEq, Repr

/-- An event of the port that meets the assertion of its reset line and is taken first: the data deadline of the
entry at a place, or the last data beat of a routed control write (R15, log 28). -/
inductive ResetMeeting where
  | deadline (place : Nat)
  | lastBeat (w : Word)
  deriving DecidableEq, Repr

/-- What the assertion of a reset line leaves open: the events of the port that meet it and are taken first, in
their order, and the order of the discards (R15, logs 5 and 28). -/
structure ResetOrder where
  first : List ResetMeeting
  discards : DiscardOrder
  deriving DecidableEq, Repr

/-- The commands of the part, in the order of spec/opcode_table.json. The frame-end rows carry no
operand: what they apply is the incoming content of the open frame (R168, log 18). -/
inductive Instr where
  | acceptDataAccess (p : Port) (acc : Access)
  | acceptControlAccess (p : Port) (acc : Access)
  | replyRead (p : Port)
  | writeDataBeat (p : Port) (w : Word)
  | newRequest (p : Port) (w : Word)
  | portRenew (p : Port) (w : Word)
  | withdraw (p : Port) (w : Word)
  | release (p : Port) (w : Word)
  | scopePush (p : Port) (w : Word)
  | scopePop (p : Port) (w : Word)
  | portClearFlags (p : Port) (w : Word)
  | dataDeadline (p : Port) (place : Nat)
  | lclkPeriod (order : List LclkPart)
  | leaseTick
  | onsetExpiry (i : WinIdx)
  | holdExpiry (i : WinIdx)
  | taperExpiry (i : WinIdx)
  | burstGrant
  | portBurstComplete
  | scrubBurstComplete
  | drainEnd (i : WinIdx)
  | fillComplete
  | portResetAssert (p : Port) (order : ResetOrder)
  | portResetRelease (p : Port)
  | porstAssert
  | powerOnReset
  | softResetEnd
  | malformedFrame
  | readOnlyFrame
  | attnEnable
  | attnAck
  | clock
  | scrubUpdate
  | fixedMap
  | portArmUpdate
  | nullAction
  | badAction
  | create
  | grantHead
  | refuseHead
  | amend
  | renew
  | activate
  | revoke
  | unwind
  | resumePort
  | clearFlags
  | ackFault
  | clearOverflow
  | scrubHold
  | scrubResume
  | softReset
  | frameOpen
  | managementClockPeriod (dataIn : Bool)
  deriving DecidableEq, Repr

end Sys2Proof
end

