-- ==== Sys2Proof/Config.lean ====
section
/-! DEFINITION. What is fixed in the LW4-32, and the one value its manual leaves open. -/

namespace Sys2Proof.Config

/-- Places in a port's pending list (spec/01 R3). -/
def pendingPlaces : Nat := 2

/-- LCLK periods within which write data must be complete (spec/01 R6). -/
def dataDeadline : Nat := 256

/-- First word of the control aperture (spec/01 R1). -/
def apertureBase : Nat := 4194288

/-- Words of the fixed region, 16 granules of 1,024 words (spec/03 section 3.4). -/
def fixedWords : Nat := 16384

/-- Words of the SRAM (spec/00 section 5.2). -/
def sramWords : Nat := 1048576

/-- Places in the request queue (spec/05 R94). -/
def queuePlaces : Nat := 16

/-- Tickets of a port (spec/05 R90). -/
def tickets : Nat := 4

/-- Frames a scope stack can hold (spec/06 R108). -/
def stackPlaces : Nat := 8

/-- The divisor after reset (spec/04 R88). -/
def resetDivisor : Nat := 25000

/-- The identification code (spec/10 R170; spec/11 section 11.4.1). -/
def ident : Word := 0x5A487FFF#32

/-- FREE VALUE (log 6). What byte `byte` of the SRAM holds after power-on number `powerOn`, until it is
written: "SRAM content is unspecified after power-on reset" (spec/00 section 5.5). It has no body. -/
opaque sramPowerOn (powerOn byte : Nat) : Byte

end Sys2Proof.Config
end

