-- ==== Sys2Proof/Machine/State.lean ====
section
/-! DEFINITION. The state of the LW4-32 as plain data, block by block, and its value after reset. -/

namespace Sys2Proof.Machine

/-! ## Values -/

/-- One value for each port. -/
structure PerPort (α : Type) where
  a : α
  b : α
  c : α
  d : α
  deriving DecidableEq, Repr

/-- Port state (R14). -/
inductive PortState where
  | active | stopped | inReset
  deriving DecidableEq, Repr

/-- The refusal reasons, in the order of their codes 1 to 18 (spec/11 section 11.1.1). -/
inductive Reason where
  | readDenied | writeDenied | laneDenied | scopeBound | scopeLost | scopeWiden | scopeBad | stackLimit
  | stackEmpty | noWindow | notYet | lapsed | retiring | controlBad | noTicket | noSuchTag | dataTimeout
  | portStopped
  deriving DecidableEq, Repr

/-- Response status (R9), in the order of its codes. -/
inductive Status where
  | ok | trimmed | refused | aborted
  deriving DecidableEq, Repr

/-- A response as it leaves a port (R9; spec/11 section 11.1.2): the reason is present with REFUSED. -/
structure Response where
  status : Status
  reason : Option Reason
  data : List Word
  deriving DecidableEq, Repr

/-- The decision taken at acceptance (spec/01 section 1.1.3). `admitted` carries the SRAM address of each
beat, the lanes written in each beat, whether any lane was dropped, and the bound window. -/
inductive Decision where
  | admitted (addrs : List SramAddr) (lanes : List LaneSet) (trimmed : Bool) (bound : Option WinIdx)
  | allAborted
  | refused (reason : Reason)
  | routed
  | served (word : Word)
  deriving DecidableEq, Repr

/-- Progress of a pending entry (R7). -/
inductive Progress where
  | waitingData | ready | executing | settled
  deriving DecidableEq, Repr

/-- A pending entry (spec/01 section 1.1.3). `kept` holds the data words kept for the burst or for the
owner of the control word (R5). -/
structure Entry where
  access : Access
  decision : Decision
  received : Option Nat
  kept : List Word
  deadlineCount : Option Nat
  progress : Progress
  response : Option Response
  dropped : Bool
  deriving DecidableEq, Repr

/-- The state of one Port Interface Unit (R18), with the level of its reset line. `flags` are the sticky
flags in the bit order of the flag mask (DENIED, BOUND, LIFE, PROTOCOL, TRIMMED). `sent` holds the
responses that have left the port, oldest first (log 8). -/
structure Piu where
  state : PortState
  line : Bool
  pending : List Entry
  discard : Nat
  lastAdmitted : Option PortAddr
  flags : BitVec 5
  arm : Bool
  sent : List Response
  deriving DecidableEq, Repr

/-- Window phase (R22), in the order of its codes. -/
inductive Phase where
  | free | arming | held | taper | lapsed | draining | scrubWait | scrubbing
  deriving DecidableEq, Repr

/-- Window kind (R21). -/
inductive WinKind where
  | grant | fence
  deriving DecidableEq, Repr

/-- Lane policy (R60). -/
inductive LanePolicy where
  | strict | trim
  deriving DecidableEq, Repr

/-- A window record (R19). -/
structure Window where
  phase : Phase
  kind : WinKind
  ports : PortSet
  portBase : PortAddr
  sizeClass : BitVec 5
  target : Option SramAddr
  rights : Rights
  writeLanes : LaneSet
  lanePolicy : LanePolicy
  scrub : Bool
  autoRetire : Bool
  onset : Code
  hold : Code
  taper : Code
  scale : BitVec 2
  renewBudget : Code
  deadline : Option LeaseTime
  inFlight : Nat
  scopeRefs : Nat
  origin : Option (Port × Tag)
  deriving DecidableEq, Repr

/-- The cleared values of a FREE window (R20). -/
def Window.cleared : Window where
  phase := .free
  kind := .grant
  ports := 0
  portBase := 0
  sizeClass := 4
  target := none
  rights := 0
  writeLanes := 0
  lanePolicy := .strict
  scrub := false
  autoRetire := false
  onset := 0
  hold := 0
  taper := 0
  scale := 0
  renewBudget := 0
  deadline := none
  inFlight := 0
  scopeRefs := 0
  origin := none

/-- An entry of the fixed map (R52). -/
inductive MapEntry where
  | none | read | readWrite
  deriving DecidableEq, Repr

/-- The fixed map: its enable and, for each granule, one entry a port (R52). -/
structure FixedMap where
  enabled : Bool
  entries : Vector (PerPort MapEntry) 16
  deriving DecidableEq, Repr

/-- An entry of the expiry list (R75). -/
structure Expiry where
  window : WinIdx
  deadline : LeaseTime
  deriving DecidableEq, Repr

/-- The Lease Clock (R68). -/
structure LeaseClock where
  divisor : Nat
  periodDivisor : Nat
  prescaler : Nat
  run : Bool
  time : LeaseTime
  expiry : List Expiry
  share : BitVec 4
  deriving DecidableEq, Repr

/-- The fields of a NEW request (R89). -/
structure NewFields where
  portBase : PortAddr
  sizeClass : BitVec 5
  rights : Rights
  writeLanes : LaneSet
  lanePolicy : LanePolicy
  hold : Code
  taper : Code
  scrubWanted : Bool
  deriving DecidableEq, Repr

/-- The kind of a request, with the fields present for that kind (R89). -/
inductive RequestBody where
  | new (fields : NewFields)
  | extend (window : WinIdx)
  deriving DecidableEq, Repr

/-- A request record (R89). -/
structure Request where
  port : Port
  tag : Tag
  body : RequestBody
  arrival : LeaseTime
  deriving DecidableEq, Repr

/-- What a reply answers (R103): the window with GRANTED, the supervisor's code with REFUSED. -/
inductive ReplyOutcome where
  | granted (window : WinIdx)
  | refused (code : Code)
  | full
  | duplicate
  deriving DecidableEq, Repr

/-- A reply record (R103). -/
structure Reply where
  tag : Tag
  outcome : ReplyOutcome
  deriving DecidableEq, Repr

/-- A scope frame (R108). -/
structure Frame where
  window : WinIdx
  ceiling : Rights
  portBase : PortAddr
  sizeClass : BitVec 5
  orphan : Bool
  deriving DecidableEq, Repr

/-- Who was granted the SRAM (R121). -/
inductive Source where
  | port (p : Port)
  | scrub
  deriving DecidableEq, Repr

/-- The burst under way (R121). -/
structure Burst where
  source : Source
  kind : AccessKind
  beats : Nat
  addrs : List SramAddr
  lanes : List LaneSet
  data : List Word
  bound : Option WinIdx
  scrubAt : Option (WinIdx × Nat)
  deriving DecidableEq, Repr

/-- The Memory Sequencer (R121). -/
structure Sequencer where
  lastGranted : Port
  shareCount : Nat
  burst : Option Burst
  deriving DecidableEq, Repr

/-- Scrub Engine state (R136). -/
inductive EngineState where
  | idle | running | paused
  deriving DecidableEq, Repr

/-- The progress record of the Scrub Engine (R136). -/
structure ScrubProgress where
  window : WinIdx
  nextOffset : Nat
  wordsRemaining : Nat
  deriving DecidableEq, Repr

/-- The Scrub Engine (R136). -/
structure ScrubEngine where
  state : EngineState
  progress : Option ScrubProgress
  list : List WinIdx
  pattern : Word
  deriving DecidableEq, Repr

/-- The access kind of a fault record (R149). -/
inductive FaultKind where
  | read | write | control
  deriving DecidableEq, Repr

/-- A fault record (R149). -/
structure FaultRecord where
  reason : Reason
  port : Port
  kind : FaultKind
  address : PortAddr
  window : Option WinIdx
  depth : Nat
  time : LeaseTime
  preceding : Option PortAddr
  repeats : Nat
  deriving DecidableEq, Repr

/-- The Fault Recorder (R150): an EMPTY slot is `none`. -/
structure FaultRecorder where
  slots : Vector (Option FaultRecord) 8
  overflow : Nat
  deriving DecidableEq, Repr

/-- The Attention Unit (R159): pending flags and enables as cause sets (bit 0 REQUEST, 1 FAULT, 2 LAPSE,
3 SCRUB_DONE, 4 STOPPED). -/
structure Attention where
  pending : BitVec 5
  enables : BitVec 5
  deriving DecidableEq, Repr

/-- Frame state (R163). -/
inductive FrameState where
  | closed | selector | payload
  deriving DecidableEq, Repr

/-- Result codes (R172), in the order of their codes. -/
inductive ResultCode where
  | done | staleHead | queueEmpty | noFreeWindow | badGeometry | targetRange | overlap | targetBusy
  | badEnvelope | wrongState | badIndex | badAction
  deriving DecidableEq, Repr

/-- A result record (R172). -/
structure Result where
  code : ResultCode
  window : Option WinIdx
  time : LeaseTime
  deriving DecidableEq, Repr

/-- The Management Port (R163), with the levels of select and of data out. -/
structure Mgmt where
  select : Bool
  dataOut : Bool
  frame : FrameState
  bitCount : Nat
  selector : BitVec 8
  captured : Payload
  incoming : Payload
  malformed : Bool
  lastResult : Result
  deriving DecidableEq, Repr

/-- SRAM content: the bytes written since power-on, as pairs (4 × word + lane, byte) with rising keys. -/
abbrev Memory := List Host.Cell

/-! ## The state -/

/-- The state of the part. `powerOns` numbers the power-on whose unspecified SRAM content is read where
nothing has been written (log 6); `pending` is the queue of commands that are waiting. -/
structure State where
  piu : PerPort Piu
  windows : Vector Window 32
  map : FixedMap
  clock : LeaseClock
  requests : List Request
  replies : PerPort (List Reply)
  tickets : PerPort Nat
  scopes : PerPort (List Frame)
  seq : Sequencer
  scrub : ScrubEngine
  faults : FaultRecorder
  attn : Attention
  mgmt : Mgmt
  sram : Memory
  powerOns : Nat
  softReset : Bool
  porst : Bool
  pending : List Instr
  deriving DecidableEq, Repr

/-- No command of the part stops the machine: every refusal the spec describes is a response, a result
code or a record, all of them state (log 21). The type has no constructor, so no step can answer a fault. -/
inductive Fault where
  deriving DecidableEq, Repr

/-- Why a command is refused by the model. -/
inductive Refusal where
  /-- Raised by an arm of `exec` for a command that has no meaning yet; safe. No arm raises it now. -/
  | notModelled (mnemonic : String)
  deriving DecidableEq, Repr

/-! ## Reset -/

/-- The same value for every port. -/
def PerPort.all {α : Type} (x : α) : PerPort α := ⟨x, x, x, x⟩

/-- A PIU after power-on with its reset line released (R18). -/
def Piu.powerOn : Piu where
  state := .active
  line := false
  pending := []
  discard := 0
  lastAdmitted := none
  flags := 0
  arm := false
  sent := []

/-- The fixed map after power-on (R52). -/
def FixedMap.powerOn : FixedMap where
  enabled := false
  entries := Vector.replicate 16 (PerPort.all .none)

/-- The Lease Clock after power-on (R88). -/
def LeaseClock.powerOn : LeaseClock where
  divisor := Config.resetDivisor
  periodDivisor := Config.resetDivisor
  prescaler := 0
  run := false
  time := 0
  expiry := []
  share := 4

/-- The Memory Sequencer after power-on (R135). -/
def Sequencer.powerOn : Sequencer where
  lastGranted := .d
  shareCount := 0
  burst := none

/-- The Scrub Engine after power-on (R146). -/
def ScrubEngine.powerOn : ScrubEngine where
  state := .idle
  progress := none
  list := []
  pattern := 0

/-- The Fault Recorder after power-on (R162). -/
def FaultRecorder.powerOn : FaultRecorder where
  slots := Vector.replicate 8 none
  overflow := 0

/-- The Attention Unit after power-on (R162). -/
def Attention.powerOn : Attention where
  pending := 0
  enables := 0

/-- The last result after power-on and after a soft reset (R176, R178). -/
def Result.powerOn : Result where
  code := .done
  window := none
  time := 0

/-- The Management Port after power-on (R178). -/
def Mgmt.powerOn : Mgmt where
  select := false
  dataOut := false
  frame := .closed
  bitCount := 0
  selector := 0
  captured := 0
  incoming := 0
  malformed := false
  lastResult := Result.powerOn

/-- The part right after power-on reset, with PORST, the port reset lines and select released. -/
def State.reset : State where
  piu := PerPort.all Piu.powerOn
  windows := Vector.replicate 32 Window.cleared
  map := FixedMap.powerOn
  clock := LeaseClock.powerOn
  requests := []
  replies := PerPort.all []
  tickets := PerPort.all Config.tickets
  scopes := PerPort.all []
  seq := Sequencer.powerOn
  scrub := ScrubEngine.powerOn
  faults := FaultRecorder.powerOn
  attn := Attention.powerOn
  mgmt := Mgmt.powerOn
  sram := []
  powerOns := 0
  softReset := false
  porst := false
  pending := []

end Sys2Proof.Machine
end

