-- ==== Sys2Proof/Machine/Operands.lean ====
section
/-! DEFINITION. Operand forms: addresses of a burst, the fields of control words and of action records
(spec/01 section 1.1.1; spec/11 sections 11.1, 11.2.1, 11.4.7). -/

namespace Sys2Proof.Machine

/-! ## Ports, sets and indices -/

/-- The value of port `p`. -/
def PerPort.get {α : Type} (x : PerPort α) : Port → α
  | .a => x.a
  | .b => x.b
  | .c => x.c
  | .d => x.d

/-- The same values with port `p`'s replaced. -/
def PerPort.set {α : Type} (x : PerPort α) : Port → α → PerPort α
  | .a, v => { x with a := v }
  | .b, v => { x with b := v }
  | .c, v => { x with c := v }
  | .d, v => { x with d := v }

/-- The four ports in order. -/
def allPorts : List Port := [.a, .b, .c, .d]

/-- The code of a port: 0 A to 3 D (spec/11 section 11.1). -/
def portCode : Port → Nat
  | .a => 0
  | .b => 1
  | .c => 2
  | .d => 3

/-- The port of a 2-bit code. -/
def portOfCode (c : BitVec 2) : Port :=
  if c = 0 then .a else if c = 1 then .b else if c = 2 then .c else .d

/-- The port after `p` in the round-robin order (R121). -/
def portAfter : Port → Port
  | .a => .b
  | .b => .c
  | .c => .d
  | .d => .a

/-- The set holding port `p` alone. -/
def portSetOf (p : Port) : PortSet := BitVec.ofNat 4 (2 ^ portCode p)

/-- Port `p` is in the set. -/
def hasPort (ps : PortSet) (p : Port) : Bool := ps.getLsbD (portCode p)

/-- The set without port `p`. -/
def withoutPort (ps : PortSet) (p : Port) : PortSet := ps &&& ~~~(portSetOf p)

/-- The READ right (bit 0). -/
def rightRead : Rights := 1

/-- The WRITE right (bit 1). -/
def rightWrite : Rights := 2

/-- READ is in the set. -/
def hasRead (r : Rights) : Bool := r.getLsbD 0

/-- WRITE is in the set. -/
def hasWrite (r : Rights) : Bool := r.getLsbD 1

/-- The window a written index names: 0 to 31, none for 32 to 63 (R179, R180). -/
def windowOfIndex (x : BitVec 6) : Option WinIdx :=
  if h : x.toNat < 32 then some ⟨x.toNat, h⟩ else none

/-- The 32 windows in rising order of index. -/
def allWindows : List WinIdx := List.finRange 32

/-! ## The words of a burst -/

/-- Port word address of beat `i`: the next words of the aligned group of four, wrapping (R2). -/
def beatAddress (address i : Nat) : Nat := address - address % 4 + (address + i) % 4

/-- The port word addresses of an access, in burst order (R2). -/
def beatAddressesOf (acc : Access) : List Nat :=
  (List.range acc.beats).map (beatAddress acc.address.toNat)

/-- Aperture word number of a control access (R1). -/
def apertureWordOf (acc : Access) : Nat := acc.address.toNat - Config.apertureBase

/-- A control access matches a row of the aperture table (R10). -/
def wellShaped (acc : Access) : Bool :=
  match acc.kind with
  | .write =>
    (apertureWordOf acc == 0 && acc.beats == 2)
      || (decide (2 ≤ apertureWordOf acc) && decide (apertureWordOf acc ≤ 7) && acc.beats == 1)
  | .read => decide (8 ≤ apertureWordOf acc) && decide (apertureWordOf acc ≤ 10) && acc.beats == 1

/-! ## Codes of small fields -/

/-- Lane policy of its bit: 0 STRICT, 1 TRIM. -/
def policyOfBit : Bool → LanePolicy
  | false => .strict
  | true => .trim

/-- Window kind of its bit: 0 GRANT, 1 FENCE. -/
def kindOfBit : Bool → WinKind
  | false => .grant
  | true => .fence

/-- Fixed-map entry of its code: 0 NONE, 1 READ, 2 READ+WRITE, and 3 stored as NONE (R180). -/
def mapEntryOfCode (c : BitVec 2) : MapEntry :=
  if c = 1 then .read else if c = 2 then .readWrite else .none

/-- Rights of a fixed-map entry (R52). -/
def MapEntry.rights : MapEntry → Rights
  | .none => 0
  | .read => rightRead
  | .readWrite => 3

/-- Writable lanes of a fixed-map entry (R52). -/
def MapEntry.lanes : MapEntry → LaneSet
  | .none => 0
  | .read => 0
  | .readWrite => 15

/-! ## Control words (spec/11 section 11.2.1) -/

/-- Tag of a NEW request's first data word. -/
def newTag (w0 : Word) : Tag := w0.extractLsb' 28 4

/-- The NEW fields of the two data words of a NEW write. -/
def newFieldsOf (w0 w1 : Word) : NewFields where
  portBase := w1.extractLsb' 0 22
  sizeClass := w1.extractLsb' 27 5
  rights := w0.extractLsb' 26 2
  writeLanes := w0.extractLsb' 22 4
  lanePolicy := policyOfBit (w0.getLsbD 21)
  hold := w0.extractLsb' 16 4
  taper := w0.extractLsb' 12 4
  scrubWanted := w0.getLsbD 20

/-- Tag of a RENEW word. -/
def renewTag (w : Word) : Tag := w.extractLsb' 8 4

/-- Tag of a WITHDRAW word. -/
def withdrawTag (w : Word) : Tag := w.extractLsb' 0 4

/-- Window index of a RENEW, RELEASE or SCOPE_PUSH word. -/
def controlIndex (w : Word) : BitVec 6 := w.extractLsb' 0 6

/-- Ceiling of a SCOPE_PUSH word. -/
def pushCeiling (w : Word) : Rights := w.extractLsb' 8 2

/-- Flag mask of a CLEAR_FLAGS word. -/
def controlMask (w : Word) : BitVec 5 := w.extractLsb' 0 5

/-! ## The action record (spec/11 section 11.4.7) -/

/-- Word `k` of a payload of `n` words; word 0 is shifted first (spec/11). -/
def payloadWord (n k : Nat) (x : Payload) : Word := x.extractLsb' (32 * (n - 1 - k)) 32

/-- The operands of an action record. -/
structure ActionRecord where
  code : BitVec 5
  index : BitVec 6
  port : Port
  tag : Tag
  refusal : Code
  budget : Code
  mask : BitVec 5
  kind : WinKind
  ports : PortSet
  portBase : PortAddr
  sizeClass : BitVec 5
  target : BitVec 22
  rights : Rights
  writeLanes : LaneSet
  lanePolicy : LanePolicy
  scrub : Bool
  autoRetire : Bool
  onset : Code
  hold : Code
  taper : Code
  scale : BitVec 2
  deriving DecidableEq, Repr

/-- The action record of the four words shifted in. -/
def actionRecordOf (x : Payload) : ActionRecord where
  code := (payloadWord 4 0 x).extractLsb' 27 5
  index := (payloadWord 4 0 x).extractLsb' 21 6
  port := portOfCode ((payloadWord 4 0 x).extractLsb' 19 2)
  tag := (payloadWord 4 0 x).extractLsb' 15 4
  refusal := (payloadWord 4 0 x).extractLsb' 11 4
  budget := (payloadWord 4 0 x).extractLsb' 7 4
  mask := (payloadWord 4 0 x).extractLsb' 2 5
  kind := kindOfBit ((payloadWord 4 1 x).getLsbD 31)
  ports := (payloadWord 4 1 x).extractLsb' 27 4
  portBase := (payloadWord 4 1 x).extractLsb' 5 22
  sizeClass := (payloadWord 4 1 x).extractLsb' 0 5
  target := (payloadWord 4 2 x).extractLsb' 10 22
  rights := (payloadWord 4 2 x).extractLsb' 8 2
  writeLanes := (payloadWord 4 2 x).extractLsb' 4 4
  lanePolicy := policyOfBit ((payloadWord 4 2 x).getLsbD 3)
  scrub := (payloadWord 4 2 x).getLsbD 2
  autoRetire := (payloadWord 4 2 x).getLsbD 1
  onset := (payloadWord 4 3 x).extractLsb' 28 4
  hold := (payloadWord 4 3 x).extractLsb' 24 4
  taper := (payloadWord 4 3 x).extractLsb' 20 4
  scale := (payloadWord 4 3 x).extractLsb' 18 2

/-- What a creation asks for: the operands of CREATE (R26) or of GRANT_HEAD and its request (R28). -/
structure NewWindow where
  kind : WinKind
  ports : PortSet
  portBase : PortAddr
  sizeClass : BitVec 5
  target : BitVec 22
  rights : Rights
  writeLanes : LaneSet
  lanePolicy : LanePolicy
  scrub : Bool
  autoRetire : Bool
  onset : Code
  hold : Code
  taper : Code
  scale : BitVec 2
  renewBudget : Code
  origin : Option (Port × Tag)
  deriving DecidableEq, Repr

/-- The window CREATE asks for (R26). -/
def createOperands (r : ActionRecord) : NewWindow where
  kind := r.kind
  ports := r.ports
  portBase := r.portBase
  sizeClass := r.sizeClass
  target := r.target
  rights := r.rights
  writeLanes := r.writeLanes
  lanePolicy := r.lanePolicy
  scrub := r.scrub
  autoRetire := r.autoRetire
  onset := r.onset
  hold := r.hold
  taper := r.taper
  scale := r.scale
  renewBudget := r.budget
  origin := none

/-- The window GRANT_HEAD asks for when the head is a NEW request (R28). -/
def grantOperands (p : Port) (tag : Tag) (f : NewFields) (r : ActionRecord) : NewWindow where
  kind := .grant
  ports := portSetOf p
  portBase := f.portBase
  sizeClass := f.sizeClass
  target := r.target
  rights := f.rights &&& r.rights
  writeLanes := f.writeLanes &&& r.writeLanes
  lanePolicy := f.lanePolicy
  scrub := f.scrubWanted
  autoRetire := r.autoRetire
  onset := r.onset
  hold := r.hold
  taper := r.taper
  scale := r.scale
  renewBudget := r.budget
  origin := some (p, tag)

end Sys2Proof.Machine
end

