-- ==== Sys2Proof/Machine/Flags.lean ====
section
/-! DEFINITION. Fault events, sticky flags, stop-on-fault and attention (spec/09). -/

namespace Sys2Proof.Machine

/-! ## Ports -/

/-- The PIU of port `p`. -/
def State.port (s : State) (p : Port) : Piu := s.piu.get p

/-- The state with the PIU of port `p` replaced. -/
def State.setPort (s : State) (p : Port) (x : Piu) : State := { s with piu := s.piu.set p x }

/-! ## Attention -/

/-- Cause sets of one cause (spec/11 section 11.1). -/
def causeRequest : BitVec 5 := 1
/-- FAULT alone. -/
def causeFault : BitVec 5 := 2
/-- LAPSE alone. -/
def causeLapse : BitVec 5 := 4
/-- SCRUB_DONE alone. -/
def causeScrubDone : BitVec 5 := 8
/-- STOPPED alone. -/
def causeStopped : BitVec 5 := 16

/-- Set the pending flag of a cause (R159). -/
def State.raise (s : State) (cause : BitVec 5) : State :=
  { s with attn := { s.attn with pending := s.attn.pending ||| cause } }

/-- The ATTN output: some cause is both pending and enabled (R159). -/
def State.attnOutput (s : State) : Bool := (s.attn.pending &&& s.attn.enables) != 0

/-- An ATTN_ENABLE update (R160). -/
def enableUpdate (fill : Bool) (causes enables : BitVec 5) : BitVec 5 :=
  if fill then enables ||| causes else enables &&& ~~~causes

/-- The pending flags an ATTN_ACK clears: REQUEST only when the request queue is empty (R161, R105). -/
def acknowledged (queueEmpty : Bool) (causes : BitVec 5) : BitVec 5 :=
  if queueEmpty then causes else causes &&& ~~~causeRequest

/-! ## Sticky flags -/

/-- The flag-mask bit of a reason's group (R155). -/
def Reason.group : Reason → BitVec 5
  | .readDenied | .writeDenied | .laneDenied => 1
  | .scopeBound | .scopeLost | .scopeWiden | .scopeBad | .stackLimit | .stackEmpty => 2
  | .noWindow | .notYet | .lapsed | .retiring => 4
  | .controlBad | .noTicket | .noSuchTag | .dataTimeout | .portStopped => 8

/-- The TRIMMED bit of the flag mask. -/
def trimmedFlag : BitVec 5 := 16

/-- ANY: at least one of the four group flags is set (R155). -/
def Piu.anyFlag (x : Piu) : Bool := (x.flags &&& 15) != 0

/-- Set the sticky flags of a mask. -/
def Piu.setFlags (x : Piu) (mask : BitVec 5) : Piu := { x with flags := x.flags ||| mask }

/-- Clear the sticky flags of a mask (R156). -/
def Piu.clearFlags (x : Piu) (mask : BitVec 5) : Piu := { x with flags := x.flags &&& ~~~mask }

/-! ## Fault recorder -/

/-- Two records have one coalescing key: reason, port, window or its absence (R150). -/
def FaultRecord.sameKey (x y : FaultRecord) : Bool :=
  x.reason == y.reason && x.port == y.port && x.window == y.window

/-- The eight slot numbers in rising order. -/
def allSlots : List (Fin 8) := List.finRange 8

/-- The slot that holds the key of `r`. -/
def FaultRecorder.slotOfKey (f : FaultRecorder) (r : FaultRecord) : Option (Fin 8) :=
  allSlots.find? fun n =>
    match f.slots[n] with
    | some x => x.sameKey r
    | none => false

/-- The lowest-numbered EMPTY slot. -/
def FaultRecorder.emptySlot (f : FaultRecorder) : Option (Fin 8) :=
  allSlots.find? fun n => f.slots[n].isNone

/-- One more repeat, up to 15. -/
def FaultRecord.repeated (r : FaultRecord) : FaultRecord := { r with repeats := min 15 (r.repeats + 1) }

/-- A record reaches the Fault Recorder: it folds into the slot of its key, or takes the lowest EMPTY
slot, or counts in overflow. The second value says whether FAULT is set (R151). -/
def FaultRecorder.record (f : FaultRecorder) (r : FaultRecord) : FaultRecorder × Bool :=
  match f.slotOfKey r with
  | some n => ({ f with slots := f.slots.set n (f.slots[n].map FaultRecord.repeated) }, false)
  | none =>
    match f.emptySlot with
    | some n => ({ f with slots := f.slots.set n (some r) }, true)
    | none => ({ f with overflow := min 255 (f.overflow + 1) }, true)

/-- The record of a fault event as it is formed (R149). -/
def faultRecordOf (s : State) (p : Port) (reason : Reason) (kind : FaultKind) (address : PortAddr)
    (window : Option WinIdx) : FaultRecord where
  reason := reason
  port := p
  kind := kind
  address := address
  window := window
  depth := (s.scopes.get p).length
  time := s.clock.time
  preceding := (s.port p).lastAdmitted
  repeats := 1

/-- Stop-on-fault: an ACTIVE port whose arm is on enters STOPPED, its arm is cleared, and STOPPED
attention is set (R157). -/
def stopOnFault (p : Port) (s : State) : State :=
  if (s.port p).arm && (s.port p).state == .active then
    (s.setPort p { s.port p with state := .stopped, arm := false }).raise causeStopped
  else s

/-- The recording part of a fault event (R151). -/
def recordFault (r : FaultRecord) (s : State) : State :=
  let out := s.faults.record r
  if out.2 then ({ s with faults := out.1 }).raise causeFault else { s with faults := out.1 }

/-- One fault event of port `p`: recorded (R151), flagged (R155), and stopping an armed port (R157). -/
def faultEvent (p : Port) (reason : Reason) (kind : FaultKind) (address : PortAddr)
    (window : Option WinIdx) (s : State) : State :=
  let s1 := recordFault (faultRecordOf s p reason kind address window) s
  stopOnFault p (s1.setPort p ((s1.port p).setFlags reason.group))

end Sys2Proof.Machine
end

