-- ==== Sys2Proof/WellFormed.lean ====
section
/-! DEFINITION. Which command terms the part's buses can carry. -/

namespace Sys2Proof

/-- An access has 1 to 4 beats and one lane set for each (R1). -/
def Access.wellFormed (acc : Access) : Bool :=
  decide (1 ≤ acc.beats) && decide (acc.beats ≤ 4) && acc.lanes.length == acc.beats

/-- The access lies in the control aperture (R1). -/
def Access.isControl (acc : Access) : Bool :=
  decide (Config.apertureBase ≤ acc.address.toNat)

/-- A part of an LCLK period names one of the two places of a pending list. -/
def LclkPart.wellFormed : LclkPart → Bool
  | .tick => true
  | .deadline _ place => decide (place < Config.pendingPlaces)
  | .grant => true

/-- A deadline that meets a port reset is that of one of the two places of the pending list. -/
def ResetMeeting.wellFormed : ResetMeeting → Bool
  | .deadline place => decide (place < Config.pendingPlaces)
  | .lastBeat _ => true

/-- The commands that can be given: accesses of the right shape and class, places of the pending list. -/
def Instr.wellFormed : Instr → Bool
  | .acceptDataAccess _ acc => acc.wellFormed && !acc.isControl
  | .acceptControlAccess _ acc => acc.wellFormed && acc.isControl
  | .dataDeadline _ place => decide (place < Config.pendingPlaces)
  | .lclkPeriod order => order.all LclkPart.wellFormed
  | .portResetAssert _ order => order.first.all ResetMeeting.wellFormed
  | .replyRead _ | .writeDataBeat _ _ | .newRequest _ _ | .portRenew _ _ | .withdraw _ _ | .release _ _
  | .scopePush _ _ | .scopePop _ _ | .portClearFlags _ _ | .leaseTick | .onsetExpiry _ | .holdExpiry _
  | .taperExpiry _ | .burstGrant | .portBurstComplete | .scrubBurstComplete | .drainEnd _ | .fillComplete
  | .portResetRelease _ | .porstAssert | .powerOnReset | .softResetEnd
  | .malformedFrame | .readOnlyFrame | .attnEnable | .attnAck | .clock | .scrubUpdate | .fixedMap
  | .portArmUpdate | .nullAction | .badAction | .create | .grantHead | .refuseHead | .amend | .renew
  | .activate | .revoke | .unwind | .resumePort | .clearFlags | .ackFault | .clearOverflow | .scrubHold
  | .scrubResume | .softReset | .frameOpen | .managementClockPeriod _ => true

end Sys2Proof
end

