-- ==== Sys2Proof/Machine/Ops.lean ====
section
/-! DEFINITION. The shared operations: SRAM content, windows, lease time, scope stacks, retirement,
pending entries and the grant decision. -/

namespace Sys2Proof.Machine

/-! ## SRAM content -/

/-- The byte listed at a key, or none where nothing has been written since power-on. -/
def Memory.read : Memory → Nat → Option Byte
  | [], _ => none
  | (k, v) :: m, a => if k = a then some v else Memory.read m a

/-- The content with one byte written; the keys stay strictly rising. -/
def Memory.write : Memory → Nat → Byte → Memory
  | [], a, b => [(a, b)]
  | (k, v) :: m, a, b =>
    if a < k then (a, b) :: (k, v) :: m
    else if a = k then (a, b) :: m
    else (k, v) :: Memory.write m a b

/-- Every key of `m` is above `k` and the keys rise strictly below 4 × 1,048,576. -/
def Memory.rising : Nat → Memory → Bool
  | _, [] => true
  | k, (l, _) :: m => decide (k ≤ l) && decide (l < 4 * Config.sramWords) && Memory.rising (l + 1) m

/-- The canonical form: keys strictly rising, all in the SRAM. An unlisted key reads as no byte
(`Memory.read` answers none), so no listed entry equals what an unlisted one reads as. -/
def Memory.wf (m : Memory) : Bool := Memory.rising 0 m

/-- Key of lane `n` of an SRAM word. -/
def laneKey (addr : SramAddr) (n : Nat) : Nat := 4 * addr.toNat + n

/-- What one byte of the SRAM holds: the byte written, or the free value of this power-on (log 6). -/
def State.sramByte (s : State) (key : Nat) : Byte :=
  (Memory.read s.sram key).getD (Config.sramPowerOn s.powerOns key)

/-- All four lanes of an SRAM word; lane 0 is the least significant byte. -/
def State.sramWord (s : State) (addr : SramAddr) : Word :=
  s.sramByte (laneKey addr 3) ++ s.sramByte (laneKey addr 2) ++ s.sramByte (laneKey addr 1)
    ++ s.sramByte (laneKey addr 0)

/-- One lane of a word written if it is in the lane set. -/
def writeLane (addr : SramAddr) (lanes : LaneSet) (w : Word) (m : Memory) (n : Nat) : Memory :=
  if lanes.getLsbD n then Memory.write m (laneKey addr n) (w.extractLsb' (8 * n) 8) else m

/-- A write beat: the lanes of its lane set and no other (R127). -/
def writeWord (m : Memory) (addr : SramAddr) (lanes : LaneSet) (w : Word) : Memory :=
  [0, 1, 2, 3].foldl (writeLane addr lanes w) m

/-- The beats of a write burst in burst order (R127). -/
def writeBeats : List SramAddr → List LaneSet → List Word → Memory → Memory
  | a :: as, l :: ls, w :: ws, m => writeBeats as ls ws (writeWord m a l w)
  | _, _, _, m => m

/-! ## Windows -/

/-- Window record `i`. -/
def State.win (s : State) (i : WinIdx) : Window := s.windows[i]

/-- The state with window record `i` replaced. -/
def State.setWin (s : State) (i : WinIdx) (w : Window) : State := { s with windows := s.windows.set i w }

/-- The words a size class stands for, 2^k. -/
def classSize (k : BitVec 5) : Nat := 2 ^ k.toNat

/-- The words a window covers. -/
def Window.size (w : Window) : Nat := classSize w.sizeClass

/-- In any phase other than FREE (R22). -/
def Window.occupied (w : Window) : Bool := w.phase != .free

/-- In ARMING, HELD or TAPER (R22). -/
def Window.live (w : Window) : Bool := w.phase == .arming || w.phase == .held || w.phase == .taper

/-- In HELD or TAPER. -/
def Window.inForce (w : Window) : Bool := w.phase == .held || w.phase == .taper

/-- In DRAINING, SCRUB_WAIT or SCRUBBING. -/
def Window.retiring (w : Window) : Bool :=
  w.phase == .draining || w.phase == .scrubWait || w.phase == .scrubbing

/-- An occupied GRANT that includes the port. -/
def Window.grantTo (w : Window) (p : Port) : Bool := w.occupied && w.kind == .grant && hasPort w.ports p

/-- A range of `size` words from `base` holds `addr` (R19). -/
def rangeHas (base size addr : Nat) : Bool := decide (base ≤ addr) && decide (addr < base + size)

/-- Two ranges share a word. -/
def rangesOverlap (base1 size1 base2 size2 : Nat) : Bool :=
  decide (base1 < base2 + size2) && decide (base2 < base1 + size1)

/-- The first range lies within the second (R110). -/
def rangeWithin (base1 size1 base2 size2 : Nat) : Bool :=
  decide (base2 ≤ base1) && decide (base1 + size1 ≤ base2 + size2)

/-- The window covers a port address (R19). -/
def Window.covers (w : Window) (addr : PortAddr) : Bool := rangeHas w.portBase.toNat w.size addr.toNat

/-! ## Lease time and the expiry list -/

/-- A deadline is reached at a lease time (R72). -/
def deadlineReached (time deadline : LeaseTime) : Bool := decide ((time - deadline).toNat < 2 ^ 31)

/-- The remaining time of a deadline (R72). -/
def remaining (time deadline : LeaseTime) : Nat := (deadline - time).toNat

/-- Ticks of a duration code from 0 to 14 (R73). -/
def codeTicks (c : Code) : Nat :=
  [0, 1, 2, 3, 5, 8, 12, 20, 30, 50, 80, 120, 200, 300, 500].getD c.toNat 0

/-- The factor of a scale (R73). -/
def scaleFactor (x : BitVec 2) : Nat := [1, 16, 256, 4096].getD x.toNat 1

/-- The duration of a phase (R73). -/
def duration (c : Code) (scale : BitVec 2) : Nat := codeTicks c * scaleFactor scale

/-- Codes 1 to 14 give a finite, non-zero duration (R74). -/
def finiteCode (c : Code) : Bool := decide (1 ≤ c.toNat) && decide (c.toNat ≤ 14)

/-- Insert an entry after every entry whose remaining time is no greater, and before the first whose
remaining time is greater (R76). -/
def insertExpiry (time : LeaseTime) (e : Expiry) : List Expiry → List Expiry
  | [] => [e]
  | x :: xs =>
    if remaining time x.deadline ≤ remaining time e.deadline then x :: insertExpiry time e xs
    else e :: x :: xs

/-- Remove window `i`'s entry from the expiry list; its deadline becomes absent (R77). -/
def removeExpiry (i : WinIdx) (s : State) : State :=
  { s with clock := { s.clock with expiry := s.clock.expiry.filter fun e => e.window != i } }.setWin i
    { s.win i with deadline := none }

/-- Window `i` enters a phase of duration code `c`: an old entry is removed, and a phase with a finite
duration gets a deadline and an entry (R76). -/
def enterPhase (i : WinIdx) (ph : Phase) (c : Code) (s : State) : State :=
  let s1 := removeExpiry i s
  let w := s1.win i
  if finiteCode c then
    let dl := s.clock.time + BitVec.ofNat 32 (duration c w.scale)
    { s1 with clock := { s1.clock with expiry := insertExpiry s.clock.time ⟨i, dl⟩ s1.clock.expiry } }.setWin i
      { w with phase := ph, deadline := some dl }
  else s1.setWin i { w with phase := ph }

/-- Window `i` enters HELD. -/
def enterHeld (i : WinIdx) (s : State) : State := enterPhase i .held (s.win i).hold s

/-- A renewal: back to HELD with a full hold from now, and the budget it gives (R83). -/
def renewWindow (i : WinIdx) (budget : Code) (s : State) : State :=
  let s1 := enterHeld i s
  s1.setWin i { s1.win i with renewBudget := budget }

/-! ## Scope stacks -/

/-- A frame that counts for window `i`: it names it and is not orphaned (R109). -/
def Frame.liveOn (i : WinIdx) (f : Frame) : Bool := f.window == i && !f.orphan

/-- Orphan a frame that names window `i` (R113). -/
def Frame.orphanOn (i : WinIdx) (f : Frame) : Frame := if f.window == i then { f with orphan := true } else f

/-- Orphan port `p`'s frames naming window `i`; the scope references fall by their number (R113). -/
def orphanPort (i : WinIdx) (p : Port) (s : State) : State :=
  let st := s.scopes.get p
  let n := st.countP (Frame.liveOn i)
  { s with scopes := s.scopes.set p (st.map (Frame.orphanOn i)) }.setWin i
    { s.win i with scopeRefs := (s.win i).scopeRefs - n }

/-- Orphan every frame naming window `i`; its scope references become 0 (R36, R81, log 20). -/
def orphanAll (i : WinIdx) (s : State) : State :=
  let o := List.map (Frame.orphanOn i)
  { s with scopes := ⟨o s.scopes.a, o s.scopes.b, o s.scopes.c, o s.scopes.d⟩ }.setWin i
    { s.win i with scopeRefs := 0 }

/-- One scope reference of window `i` fewer. -/
def lowerRef (i : WinIdx) (s : State) : State :=
  s.setWin i { s.win i with scopeRefs := (s.win i).scopeRefs - 1 }

/-- Lower the references of the windows that a list of removed frames counts for (R117, R118). -/
def lowerRefs : List Frame → State → State
  | [], s => s
  | f :: fs, s => lowerRefs fs (if f.orphan then s else lowerRef f.window s)

/-- Empty port `p`'s stack (R117, R118). -/
def emptyStack (p : Port) (s : State) : State :=
  let s1 := lowerRefs (s.scopes.get p) s
  { s1 with scopes := s1.scopes.set p [] }

/-! ## Retirement -/

/-- The Scrub Engine takes the head of its list, if there is one (R138). -/
def scrubTake (s : State) : State :=
  match s.scrub.list with
  | [] => s
  | i :: rest =>
    { s with
      scrub := { s.scrub with
        list := rest
        progress := some ⟨i, 0, (s.win i).size⟩
        state := if s.scrub.state == EngineState.idle then EngineState.running else s.scrub.state } }.setWin i
      { s.win i with phase := .scrubbing }

/-- A window index joins the scrub list; an IDLE engine takes it in the same event (R137, R138). -/
def scrubAppend (i : WinIdx) (s : State) : State :=
  let s1 := { s with scrub := { s.scrub with list := s.scrub.list ++ [i] } }
  if s.scrub.state == .idle then scrubTake s1 else s1

/-- The drain of window `i` ends: SCRUB_WAIT and the scrub list, or FREE with the cleared values (R38). -/
def endDrain (i : WinIdx) (s : State) : State :=
  if (s.win i).scrub then scrubAppend i (s.setWin i { s.win i with phase := .scrubWait })
  else s.setWin i Window.cleared

/-- A drain that stands at a count of 0 ends (R38). -/
def endDrainIfDone (i : WinIdx) (s : State) : State :=
  if (s.win i).phase == .draining && (s.win i).inFlight == 0 then endDrain i s else s

/-- Window `i` enters DRAINING (R36). A drain that stands at a count of 0 ends in the same event, after every cause
of R36: without the scrub flag the window is then FREE, and an access, a RELEASE or a RENEW taken after the
retirement is refused NO_WINDOW, where the rows of R39, R34, R40, R82, R87 and section 3.9 say RETIRING (log 25). -/
def enterDraining (i : WinIdx) (s : State) : State :=
  let s1 := orphanAll i (removeExpiry i s)
  endDrainIfDone i (s1.setWin i { s1.win i with phase := .draining })

/-- A bound access of window `i` ends: its in-flight count falls by 1, which may end its drain
(R37, R38). -/
def releaseBinding (i : WinIdx) (s : State) : State :=
  endDrainIfDone i (s.setWin i { s.win i with inFlight := (s.win i).inFlight - 1 })

/-- Release a binding, where there is one. -/
def releaseBound (b : Option WinIdx) (s : State) : State :=
  match b with
  | some i => releaseBinding i s
  | none => s

/-- Window `i` enters LAPSED: its frames are orphaned, and it retires or sets LAPSE (R81). LAPSE is set at every
lapse without auto-retire, also at one that follows a RENEW of a spent budget, which R87's last sentence leaves
out (log 26). A window that retires here at a count of 0 without the scrub flag is FREE after the expiry, and a
RELEASE taken then is refused NO_WINDOW, where R40 says DRAINING and RETIRING (log 25). -/
def enterLapsed (i : WinIdx) (s : State) : State :=
  let s1 := orphanAll i (removeExpiry i s)
  let s2 := s1.setWin i { s1.win i with phase := .lapsed }
  if (s2.win i).autoRetire then enterDraining i s2 else s2.raise causeLapse

/-! ## Pending entries and responses -/

/-- The bound window of a decision. -/
def Decision.boundWindow : Decision → Option WinIdx
  | .admitted _ _ _ bound => bound
  | .allAborted | .refused _ | .routed | .served _ => none

/-- The data words of a refused or aborted access: 0 for each beat of a read (R9). -/
def zeroData (acc : Access) : List Word :=
  match acc.kind with
  | .read => List.replicate acc.beats 0
  | .write => []

/-- A REFUSED response (R9). -/
def refusedResponse (acc : Access) (reason : Reason) : Response := ⟨.refused, some reason, zeroData acc⟩

/-- An ABORTED response (R9). -/
def abortedResponse (acc : Access) : Response := ⟨.aborted, none, zeroData acc⟩

/-- An OK response with its data words. -/
def okResponse (data : List Word) : Response := ⟨.ok, none, data⟩

/-- A TRIMMED response. -/
def trimmedResponse : Response := ⟨.trimmed, none, []⟩

/-- Settle an entry with its response; it waits for nothing more (R7). -/
def Entry.settle (e : Entry) (r : Response) : Entry :=
  { e with progress := .settled, response := some r, deadlineCount := none }

/-- The responses that leave and the entries that stay: from the oldest on, as long as they are SETTLED
(R8). -/
def leaving : List Entry → List Response × List Entry
  | [] => ([], [])
  | e :: es =>
    if e.progress == .settled then
      let out := leaving es
      (e.response.toList ++ out.1, out.2)
    else ([], e :: es)

/-- Port `p`'s settled responses leave in acceptance order and free their slots (R8). -/
def depart (p : Port) (s : State) : State :=
  let u := s.port p
  let out := leaving u.pending
  s.setPort p { u with pending := out.2, sent := u.sent ++ out.1 }

/-- Replace the entry at a place of port `p`'s pending list. -/
def setEntry (p : Port) (place : Nat) (e : Entry) (s : State) : State :=
  s.setPort p { s.port p with pending := (s.port p).pending.set place e }

/-- A pending entry at acceptance, with the progress it starts from. -/
def blankEntry (acc : Access) (dec : Decision) (progress : Progress) : Entry where
  access := acc
  decision := dec
  received := none
  kept := []
  deadlineCount := none
  progress := progress
  response := none
  dropped := false

/-- The pending entry of an access whose decision has just been taken (R4 to R7). A READ is READY or
SETTLED at once; a WRITE waits for its data with a deadline count of 256. -/
def newEntry (acc : Access) (dec : Decision) : Entry :=
  match acc.kind with
  | .write =>
    { blankEntry acc dec .waitingData with received := some 0, deadlineCount := some Config.dataDeadline }
  | .read =>
    match dec with
    | .refused reason => (blankEntry acc dec .ready).settle (refusedResponse acc reason)
    | .served word => (blankEntry acc dec .ready).settle (okResponse [word])
    | .admitted _ _ _ _ | .allAborted | .routed => blankEntry acc dec .ready

/-- An accepted access takes a slot, and a settled oldest entry leaves at once (R3, R8). -/
def enterPending (p : Port) (e : Entry) (s : State) : State :=
  depart p (s.setPort p { s.port p with pending := (s.port p).pending ++ [e] })

/-- Port `p` accepts an offered access (R3). -/
def canAccept (s : State) (p : Port) (acc : Access) : Bool :=
  acc.wellFormed && (s.port p).state != .inReset && !s.porst && !s.softReset
    && decide ((s.port p).pending.length < Config.pendingPlaces)
    && (acc.kind == .read || (s.port p).discard == 0)

/-- The place of the oldest entry that waits for data, with the entry (R5). -/
def oldestWaiting : List Entry → Option (Nat × Entry)
  | [] => none
  | e :: es =>
    if e.progress == .waitingData then some (0, e)
    else (oldestWaiting es).map fun x => (x.1 + 1, x.2)

/-! ## The grant decision -/

/-- Port `p` is a candidate: its oldest entry is READY (R122). -/
def portCandidate (s : State) (p : Port) : Bool :=
  match (s.port p).pending with
  | e :: _ => e.progress == .ready
  | [] => false

/-- The Scrub Engine is a candidate, the SRAM being idle: RUNNING with words remaining (R123). -/
def scrubCandidate (s : State) : Bool :=
  s.scrub.state == .running &&
    match s.scrub.progress with
    | some g => decide (0 < g.wordsRemaining)
    | none => false

/-- The Scrub Engine goes first (R125 step 1). -/
def scrubFirst (s : State) : Bool :=
  scrubCandidate s &&
    ((decide (1 ≤ s.clock.share.toNat) && decide (s.clock.share.toNat ≤ s.seq.shareCount))
      || !(allPorts.any (portCandidate s)))

/-- The ports in search order: from the one after the last granted port (R125 step 2). -/
def searchOrder (last : Port) : List Port :=
  [portAfter last, portAfter (portAfter last), portAfter (portAfter (portAfter last)), last]

/-- The port that wins the round-robin search (R125 step 2). -/
def nextPort (s : State) : Option Port := (searchOrder s.seq.lastGranted).find? (portCandidate s)

/-- The burst record of port `p`'s candidate entry (R121, R124). -/
def portBurst (p : Port) (e : Entry) : Burst :=
  match e.decision with
  | .admitted addrs lanes _ bound =>
    { source := .port p, kind := e.access.kind, beats := e.access.beats, addrs := addrs,
      lanes := if e.access.kind == .write then lanes else [], data := e.kept, bound := bound, scrubAt := none }
  | .allAborted | .refused _ | .routed | .served _ =>
    { source := .port p, kind := e.access.kind, beats := e.access.beats, addrs := [], lanes := [],
      data := [], bound := none, scrubAt := none }

/-- A port grant: the entry is EXECUTING, the burst is under way (R124, R126). -/
def startPortBurst (p : Port) (s : State) : State :=
  match (s.port p).pending with
  | [] => s
  | e :: es =>
    { s with seq := ⟨p, min 15 (s.seq.shareCount + 1), some (portBurst p e)⟩ }.setPort p
      { s.port p with pending := { e with progress := .executing } :: es }

/-- The burst record of the Scrub Engine's next group (R123, R128). -/
def scrubBurst (s : State) (g : ScrubProgress) : Burst :=
  let base := ((s.win g.window).target.getD 0).toNat + g.nextOffset
  { source := .scrub, kind := .write, beats := 4,
    addrs := [0, 1, 2, 3].map fun n => BitVec.ofNat 20 (base + n),
    lanes := List.replicate 4 15, data := List.replicate 4 s.scrub.pattern, bound := none,
    scrubAt := some (g.window, g.nextOffset) }

/-- A scrub grant (R124, R126). -/
def startScrubBurst (s : State) : State :=
  match s.scrub.progress with
  | none => s
  | some g => { s with seq := { s.seq with shareCount := 0, burst := some (scrubBurst s g) } }

/-- A grant decision can be taken: the SRAM is idle, no soft reset is in progress, PORST is released
(R124, R135). -/
def mayGrant (s : State) : Bool := s.seq.burst.isNone && !s.softReset && !s.porst

/-- The grant decision, where one is due; without a candidate it changes nothing (R124, R125). -/
def grantDecision (s : State) : State :=
  if mayGrant s then
    if scrubFirst s then startScrubBurst s
    else match nextPort s with
      | some p => startPortBurst p s
      | none => s
  else s

/-! ## Actions -/

/-- What an action leaves: the state, its result code and the window its result names (R172). -/
abbrev ActionOut := State × ResultCode × Option WinIdx

end Sys2Proof.Machine
end

