-- ==== Sys2Proof/Machine/Admission.lean ====
section
/-! DEFINITION. The Admission Unit: the decision of a data access, a function of the state read at its
acceptance (spec/03). -/

namespace Sys2Proof.Machine

/-- A decision of the Admission Unit (R47). -/
inductive Verdict where
  | admitted (addrs : List SramAddr) (lanes : List LaneSet) (trimmed : Bool) (bound : Option WinIdx)
  | allAborted
  | refused (reason : Reason) (window : Option WinIdx)
  deriving DecidableEq, Repr

/-- A refusal with the window it names (R64). -/
abbrev Refused := Reason × Option WinIdx

/-- What steps 2 and 3 build: effective rights, writable lanes, the lane policy of step 7, the bound window,
and the relocation from port words at `from_` to SRAM words at `to_` (R49). -/
structure Basis where
  rights : Rights
  lanes : LaneSet
  policy : LanePolicy
  bound : Option WinIdx
  from_ : Nat
  to_ : Nat
  deriving DecidableEq, Repr

/-- Step 1, scope bound: the ceiling of the top frame, or no ceiling (R50). The range of a live frame is
the port range of the window it names. -/
def scopeBound (p : Port) (addr : PortAddr) (s : State) : Except Refused (Option Rights) :=
  match s.scopes.get p with
  | [] => .ok none
  | f :: _ =>
    if f.orphan then .error (.scopeLost, some f.window)
    else if (s.win f.window).covers addr then .ok (some f.ceiling)
    else .error (.scopeBound, some f.window)

/-- The granule of a fixed-region address. -/
def granuleOf (addr : PortAddr) : Fin 16 := Fin.ofNat 16 (addr.toNat / 1024)

/-- Step 2, fixed region: rights and lanes of the port's granule entry, no window (R53). -/
def fixedBasis (p : Port) (addr : PortAddr) (s : State) : Basis where
  rights := (s.map.entries[granuleOf addr].get p).rights
  lanes := (s.map.entries[granuleOf addr].get p).lanes
  policy := .strict
  bound := none
  from_ := 0
  to_ := 0

/-- Step 2 applies: the map is enabled and the address lies in the fixed region (R53). -/
def inFixedRegion (addr : PortAddr) (s : State) : Bool :=
  s.map.enabled && decide (addr.toNat < Config.fixedWords)

/-- The matched GRANT: the occupied GRANT that includes the port and covers the address (R55). -/
def matchedGrant (p : Port) (addr : PortAddr) (s : State) : Option WinIdx :=
  allWindows.find? fun i => (s.win i).grantTo p && (s.win i).covers addr

/-- What a matched GRANT gives: its rights and lanes, and its relocation (R56, R57). -/
def grantBasis (i : WinIdx) (rights : Rights) (s : State) : Basis where
  rights := rights
  lanes := (s.win i).writeLanes
  policy := (s.win i).lanePolicy
  bound := some i
  from_ := (s.win i).portBase.toNat
  to_ := ((s.win i).target.getD 0).toNat

/-- Step 3, grant match (R55, R56). After a retirement whose drain ended in its own event the window is FREE and
matches nothing: NO_WINDOW, where R39 and section 3.9 say RETIRING (log 25). -/
def grantMatch (p : Port) (addr : PortAddr) (s : State) : Except Refused Basis :=
  match matchedGrant p addr s with
  | none => .error (.noWindow, none)
  | some i =>
    match (s.win i).phase with
    | .held => .ok (grantBasis i (s.win i).rights s)
    | .taper => .ok (grantBasis i ((s.win i).rights &&& ~~~rightWrite) s)
    | .arming => .error (.notYet, some i)
    | .lapsed => .error (.lapsed, some i)
    | .draining | .scrubWait | .scrubbing => .error (.retiring, some i)
    | .free => .error (.noWindow, none)

/-- A FENCE that acts on an access: HELD, including the port, covering the address (R57). -/
def Window.fences (w : Window) (p : Port) (addr : PortAddr) : Bool :=
  w.phase == .held && w.kind == .fence && hasPort w.ports p && w.covers addr

/-- Step 4: one window's removals (R57). -/
def applyFence (p : Port) (addr : PortAddr) (s : State) (b : Basis) (i : WinIdx) : Basis :=
  if (s.win i).fences p addr then
    { b with rights := b.rights &&& ~~~(s.win i).rights, lanes := b.lanes &&& ~~~(s.win i).writeLanes }
  else b

/-- Step 4, fences: all removals are made (R57). -/
def applyFences (p : Port) (addr : PortAddr) (s : State) (b : Basis) : Basis :=
  allWindows.foldl (applyFence p addr s) b

/-- Step 6, ceiling (R58). -/
def applyCeiling (ceiling : Option Rights) (b : Basis) : Basis :=
  match ceiling with
  | some c => { b with rights := b.rights &&& c }
  | none => b

/-- Step 5, relocation: the SRAM address of each beat (R48, R53, R57). -/
def relocate (b : Basis) (acc : Access) : List SramAddr :=
  (beatAddressesOf acc).map fun x => BitVec.ofNat 20 (b.to_ + (x - b.from_))

/-- Some beat enables a lane that is not writable (R60). -/
def hasDeniedLane (writable : LaneSet) (lanes : List LaneSet) : Bool :=
  lanes.any fun l => l &&& ~~~writable != 0

/-- The lane sets without their denied lanes (R61). -/
def trimLanes (writable : LaneSet) (lanes : List LaneSet) : List LaneSet := lanes.map (· &&& writable)

/-- Steps 7 and 8 of a WRITE (R60, R61, R62). -/
def checkWrite (b : Basis) (acc : Access) : Verdict :=
  if !hasWrite b.rights then .refused .writeDenied b.bound
  else if !hasDeniedLane b.lanes acc.lanes then .admitted (relocate b acc) acc.lanes false b.bound
  else match b.policy with
    | .strict => .refused .laneDenied b.bound
    | .trim =>
      if (trimLanes b.lanes acc.lanes).all (· == 0) then .allAborted
      else .admitted (relocate b acc) (trimLanes b.lanes acc.lanes) true b.bound

/-- Step 7, kind check, and step 8 (R59 to R63). -/
def kindCheck (b : Basis) (acc : Access) : Verdict :=
  match acc.kind with
  | .read => if hasRead b.rights then .admitted (relocate b acc) [] false b.bound else .refused .readDenied b.bound
  | .write => checkWrite b acc

/-- Steps 2 and 3, which are alternatives (R49). -/
def basisOf (p : Port) (addr : PortAddr) (s : State) : Except Refused Basis :=
  if inFixedRegion addr s then .ok (fixedBasis p addr s) else grantMatch p addr s

/-- The decision of a data access of an ACTIVE port (R49): the first step that refuses decides. -/
def admission (p : Port) (acc : Access) (s : State) : Verdict :=
  match scopeBound p acc.address s with
  | .error r => .refused r.1 r.2
  | .ok ceiling =>
    match basisOf p acc.address s with
    | .error r => .refused r.1 r.2
    | .ok b => kindCheck (applyCeiling ceiling (applyFences p acc.address s b)) acc

end Sys2Proof.Machine
end

