-- ==== Sys2Proof/Machine/Formats.lean ====
section
/-! DEFINITION. Word and record formats that the part drives (spec/11): aperture words and the captured
content of every register. Unused bits are 0 (R181). -/

namespace Sys2Proof.Machine

/-! ## Fields -/

/-- A field whose least significant bit is bit `lo` of a word. -/
def field {n : Nat} (lo : Nat) (v : BitVec n) : Word := v.setWidth 32 <<< lo

/-- A natural number as a field from bit `lo` (a code or a count within the field's width). -/
def numField (lo v : Nat) : Word := BitVec.ofNat 32 v <<< lo

/-- A one-bit field. -/
def bitField (lo : Nat) (b : Bool) : Word := numField lo b.toNat

/-- A 5-bit window index, 0 where absent. -/
def indexField (lo : Nat) (i : Option WinIdx) : Word := numField lo (match i with | some x => x.val | none => 0)

/-- Words in the order they are shifted, word 0 first. -/
def payloadOf : List Word → Payload
  | ws => ws.foldl (fun acc w => (acc <<< 32) ||| w.setWidth 160) 0

/-! ## Codes (spec/11 sections 11.1, 11.1.1, 11.4.7) -/

/-- Phase code. -/
def phaseCode : Phase → Nat
  | .free => 0
  | .arming => 1
  | .held => 2
  | .taper => 3
  | .lapsed => 4
  | .draining => 5
  | .scrubWait => 6
  | .scrubbing => 7

/-- Window kind code. -/
def kindCode : WinKind → Nat
  | .grant => 0
  | .fence => 1

/-- Lane policy code. -/
def policyCode : LanePolicy → Nat
  | .strict => 0
  | .trim => 1

/-- Port state code. -/
def portStateCode : PortState → Nat
  | .active => 0
  | .stopped => 1
  | .inReset => 2

/-- Engine state code. -/
def engineCode : EngineState → Nat
  | .idle => 0
  | .running => 1
  | .paused => 2

/-- Access kind code of a fault record. -/
def faultKindCode : FaultKind → Nat
  | .read => 0
  | .write => 1
  | .control => 2

/-- Fixed-map entry code. -/
def mapEntryCode : MapEntry → Nat
  | .none => 0
  | .read => 1
  | .readWrite => 2

/-- Reason code, 1 to 18. -/
def reasonCode : Reason → Nat
  | .readDenied => 1
  | .writeDenied => 2
  | .laneDenied => 3
  | .scopeBound => 4
  | .scopeLost => 5
  | .scopeWiden => 6
  | .scopeBad => 7
  | .stackLimit => 8
  | .stackEmpty => 9
  | .noWindow => 10
  | .notYet => 11
  | .lapsed => 12
  | .retiring => 13
  | .controlBad => 14
  | .noTicket => 15
  | .noSuchTag => 16
  | .dataTimeout => 17
  | .portStopped => 18

/-- Result code, 0 to 11. -/
def resultCodeNum : ResultCode → Nat
  | .done => 0
  | .staleHead => 1
  | .queueEmpty => 2
  | .noFreeWindow => 3
  | .badGeometry => 4
  | .targetRange => 5
  | .overlap => 6
  | .targetBusy => 7
  | .badEnvelope => 8
  | .wrongState => 9
  | .badIndex => 10
  | .badAction => 11

/-- Response status code. -/
def statusCode : Status → Nat
  | .ok => 0
  | .trimmed => 1
  | .refused => 2
  | .aborted => 3

/-- The 2-bit status and the 5-bit reason of a response, whose codes and widths spec/11 section 11.1.2 gives; the
reason is 0 with every status but REFUSED. That one number holds the status in bits 6 to 5 and the reason in bits 4
to 0 is the model's choice (log 27). -/
def Response.lines (r : Response) : Nat :=
  32 * statusCode r.status + (match r.reason with | some x => reasonCode x | none => 0)

/-! ## Aperture words (spec/11 section 11.2.2) -/

/-- The reply word of a reply read (R104). -/
def replyWord (r : Reply) : Word :=
  field 25 r.tag |||
    match r.outcome with
    | .granted i => numField 29 1 ||| numField 20 i.val
    | .refused c => numField 29 2 ||| field 16 c
    | .full => numField 29 3
    | .duplicate => numField 29 4

/-- The port status word, which is also the PORT register (R13; spec/11 section 11.4.2). -/
def portWord (s : State) (p : Port) : Word :=
  let u := s.port p
  numField 30 (portStateCode u.state) ||| bitField 29 u.anyFlag ||| field 24 u.flags ||| bitField 23 u.arm
    ||| numField 19 (s.scopes.get p).length ||| numField 16 (s.tickets.get p)
    ||| numField 13 (s.replies.get p).length

/-! ## Register contents (spec/11 section 11.4) -/

/-- STATUS (section 11.4.1). -/
def statusWord (s : State) : Word :=
  bitField 31 s.mgmt.malformed ||| field 26 s.attn.pending ||| numField 24 (engineCode s.scrub.state)
    ||| numField 19 s.requests.length ||| numField 11 s.faults.overflow

/-- CLOCK (section 11.4.2); a divisor of 65,536 reads as 0. -/
def clockWords (s : State) : List Word :=
  [bitField 31 s.clock.run ||| field 27 s.clock.share ||| field 0 (BitVec.ofNat 16 s.clock.divisor),
   s.clock.time]

/-- SCRUB (section 11.4.2). -/
def scrubWords (s : State) : List Word :=
  let head := numField 30 (engineCode s.scrub.state) ||| numField 0 s.scrub.list.length
  match s.scrub.progress with
  | some g =>
    [s.scrub.pattern, head ||| bitField 29 true ||| numField 24 g.window.val, numField 0 g.nextOffset,
     numField 0 g.wordsRemaining]
  | none => [s.scrub.pattern, head, 0, 0]

/-- One granule byte of FIXED_MAP (section 11.4.3). -/
def granuleByte (e : PerPort MapEntry) : Byte :=
  BitVec.ofNat 8
    (mapEntryCode e.a + 4 * mapEntryCode e.b + 16 * mapEntryCode e.c + 64 * mapEntryCode e.d)

/-- FIXED_MAP: 17 bytes, byte 0 first (section 11.4.3). -/
def mapPayload (m : FixedMap) : Payload :=
  m.entries.toList.foldl (fun acc e => (acc <<< 8) ||| (granuleByte e).setWidth 160)
    ((numField 7 m.enabled.toNat).setWidth 160)

/-- First data word of a NEW request, as it was written but for its unused bits (section 11.2.1). -/
def newWord0 (tag : Tag) (f : NewFields) : Word :=
  field 28 tag ||| field 26 f.rights ||| field 22 f.writeLanes ||| numField 21 (policyCode f.lanePolicy)
    ||| bitField 20 f.scrubWanted ||| field 16 f.hold ||| field 12 f.taper

/-- Second data word of a NEW request (section 11.2.1). -/
def newWord1 (f : NewFields) : Word := field 27 f.sizeClass ||| field 0 f.portBase

/-- REQUEST_HEAD (R96; section 11.4.4). -/
def requestHeadWords (s : State) : List Word :=
  match s.requests with
  | [] => [bitField 31 true, 0, 0, 0]
  | r :: _ =>
    let head := numField 26 s.requests.length ||| numField 23 (portCode r.port) ||| field 19 r.tag
    match r.body with
    | .new f => [head, newWord0 r.tag f, newWord1 f, r.arrival]
    | .extend i => [head ||| bitField 25 true ||| numField 14 i.val, 0, 0, r.arrival]

/-- The last result (section 11.4.7). -/
def resultWords (r : Result) : List Word :=
  [numField 28 (resultCodeNum r.code) ||| bitField 27 r.window.isSome ||| indexField 22 r.window, r.time, 0, 0]

/-- A fault slot (R154; section 11.4.5). -/
def faultWords : Option FaultRecord → List Word
  | none => [0, 0, 0, 0]
  | some r =>
    [bitField 31 true ||| numField 26 (reasonCode r.reason) ||| numField 24 (portCode r.port)
        ||| numField 22 (faultKindCode r.kind) ||| bitField 21 r.window.isSome ||| indexField 16 r.window
        ||| numField 12 r.depth ||| numField 8 r.repeats ||| bitField 7 r.preceding.isSome,
     field 0 r.address, field 0 (r.preceding.getD 0), r.time]

/-- Origin fields of a window record: port and tag, 0 where absent. -/
def originField : Option (Port × Tag) → Word
  | some (p, t) => bitField 29 true ||| numField 27 (portCode p) ||| field 23 t
  | none => 0

/-- A window record (R44; section 11.4.6). -/
def windowWords (w : Window) : List Word :=
  [numField 29 (phaseCode w.phase) ||| numField 28 (kindCode w.kind) ||| field 24 w.ports
      ||| field 19 w.sizeClass ||| field 17 w.rights ||| field 13 w.writeLanes
      ||| numField 12 (policyCode w.lanePolicy) ||| bitField 11 w.scrub ||| bitField 10 w.autoRetire
      ||| field 6 w.onset ||| field 2 w.hold,
   field 28 w.taper ||| field 26 w.scale ||| field 22 w.renewBudget ||| field 0 w.portBase,
   bitField 31 w.target.isSome ||| bitField 30 w.deadline.isSome ||| originField w.origin
      ||| field 0 (w.target.getD 0),
   numField 28 w.inFlight ||| numField 22 w.scopeRefs,
   w.deadline.getD 0]

/-- The access registers (R169). -/
inductive Register where
  | ident | status | attnEnable | attnAck | clock | scrub | fixedMap | requestHead | action
  | port (p : Port)
  | fault (n : Fin 8)
  | window (i : WinIdx)
  deriving DecidableEq, Repr

/-- The register of a selector value; none for an unassigned selector (spec/11 section 11.3). -/
def registerOf (sel : BitVec 8) : Option Register :=
  let n := sel.toNat
  if n = 0 then some .ident
  else if n = 1 then some .status
  else if n = 2 then some .attnEnable
  else if n = 3 then some .attnAck
  else if n = 4 then some .clock
  else if n = 5 then some .scrub
  else if n = 6 then some .fixedMap
  else if n = 7 then some .requestHead
  else if n = 8 then some .action
  else if n / 4 = 4 then some (.port (portOfCode (sel.extractLsb' 0 2)))
  else if n / 8 = 4 then some (.fault (Fin.ofNat 8 n))
  else if n / 32 = 2 then some (.window (Fin.ofNat 32 n))
  else none

/-- Payload length in bits (spec/11 section 11.3). -/
def Register.length : Register → Nat
  | .ident | .status | .port _ => 32
  | .attnEnable | .attnAck => 8
  | .clock => 64
  | .scrub | .requestHead | .action | .fault _ => 128
  | .fixedMap => 136
  | .window _ => 160

/-- What the capture of a register holds (R165, R169). -/
def Register.content (s : State) : Register → Payload
  | .ident => payloadOf [Config.ident]
  | .status => payloadOf [statusWord s]
  | .attnEnable => payloadOf [field 0 s.attn.enables]
  | .attnAck => payloadOf [field 0 s.attn.pending]
  | .clock => payloadOf (clockWords s)
  | .scrub => payloadOf (scrubWords s)
  | .fixedMap => mapPayload s.map
  | .requestHead => payloadOf (requestHeadWords s)
  | .action => payloadOf (resultWords s.mgmt.lastResult)
  | .port p => payloadOf [portWord s p]
  | .fault n => payloadOf (faultWords s.faults.slots[n])
  | .window i => payloadOf (windowWords (s.win i))

end Sys2Proof.Machine
end

