-- ==== Sys2Proof/Machine/Requests.lean ====
section
/-! DEFINITION. The Request Queue: arrivals, replies and tickets (spec/05). -/

namespace Sys2Proof.Machine

/-- The ticket count of port `p` set to a value. -/
def setTickets (p : Port) (n : Nat) (s : State) : State := { s with tickets := s.tickets.set p n }

/-- Append a reply to port `p`'s reply list (R103). -/
def placeReply (p : Port) (r : Reply) (s : State) : State :=
  { s with replies := s.replies.set p (s.replies.get p ++ [r]) }

/-- A queued request is port `p`'s with this tag. -/
def Request.named (p : Port) (tag : Tag) (r : Request) : Bool := r.port == p && r.tag == tag

/-- The tag is carried by a queued request or an unread reply of the port (R92). -/
def tagInUse (s : State) (p : Port) (tag : Tag) : Bool :=
  s.requests.any (Request.named p tag) || (s.replies.get p).any fun r => r.tag == tag

/-- A request arrives, holding one of its port's tickets: DUPLICATE, FULL, or it joins the queue and sets
REQUEST (R92, R105). -/
def requestArrival (r : Request) (s : State) : State :=
  let s1 := setTickets r.port (s.tickets.get r.port - 1) s
  if tagInUse s r.port r.tag then placeReply r.port ⟨r.tag, .duplicate⟩ s1
  else if Config.queuePlaces ≤ s.requests.length then placeReply r.port ⟨r.tag, .full⟩ s1
  else { s1 with requests := s1.requests ++ [r] }.raise causeRequest

/-- Serve a reply read: the oldest reply leaves the list and a ticket returns, or the word is 0 for EMPTY
(R104). -/
def serveReply (p : Port) (s : State) : Word × State :=
  match s.replies.get p with
  | [] => (0, s)
  | r :: rest =>
    (replyWord r, setTickets p (s.tickets.get p + 1) { s with replies := s.replies.set p rest })

/-- The Request Queue at the assertion of port `p`'s reset line (R106). -/
def dropRequests (p : Port) (s : State) : State :=
  setTickets p Config.tickets
    { s with requests := s.requests.filter (fun r => r.port != p), replies := s.replies.set p [] }

end Sys2Proof.Machine
end

