-- ==== Sys2Proof/Machine/Control.lean ====
section
/-! DEFINITION. Control writes carried out by their owning blocks (R12): NEW, RENEW, WITHDRAW, RELEASE,
SCOPE_PUSH, SCOPE_POP, CLEAR_FLAGS (spec/02, 04, 05, 06, 09). -/

namespace Sys2Proof.Machine

/-- What an owning block answers: the state, and a refusal with the window it names, or none for OK. -/
abbrev OwnerOut := State × Option (Reason × Option WinIdx)

/-- Carried out and answered OK. -/
def ownerOk (s : State) : OwnerOut := (s, none)

/-- Refused; the state is unchanged. -/
def ownerRefused (s : State) (reason : Reason) (window : Option WinIdx) : OwnerOut := (s, some (reason, window))

/-- A NEW write (R91). -/
def carryNew (p : Port) (words : List Word) (s : State) : OwnerOut :=
  let w0 := words.getD 0 0
  let w1 := words.getD 1 0
  if s.tickets.get p == 0 then ownerRefused s .noTicket none
  else ownerOk (requestArrival ⟨p, newTag w0, .new (newFieldsOf w0 w1), s.clock.time⟩ s)

/-- A RENEW that finds a budget of 0 makes an EXTEND request (R85). -/
def makeExtend (p : Port) (i : WinIdx) (tag : Tag) (s : State) : OwnerOut :=
  if s.tickets.get p == 0 then ownerRefused s .noTicket (some i)
  else ownerOk (requestArrival ⟨p, tag, .extend i, s.clock.time⟩ s)

/-- The budget after a port RENEW: one less, or still unlimited (R83). -/
def spentBudget (b : Code) : Code := if b = 15 then 15 else b - 1

/-- A RENEW of window `i` (R84). After a lapse whose drain ended in its own event the window is FREE and the refusal is
NO_WINDOW, where R87's row says RETIRING (log 25). -/
def renewByPort (p : Port) (i : WinIdx) (tag : Tag) (s : State) : OwnerOut :=
  let w := s.win i
  if !w.grantTo p then ownerRefused s .noWindow (some i)
  else match w.phase with
    | .arming => ownerRefused s .notYet (some i)
    | .lapsed => ownerRefused s .lapsed (some i)
    | .draining | .scrubWait | .scrubbing => ownerRefused s .retiring (some i)
    | .held | .taper =>
      if w.renewBudget = 0 then makeExtend p i tag s
      else ownerOk (renewWindow i (spentBudget w.renewBudget) s)
    | .free => ownerRefused s .noWindow (some i)

/-- A RENEW write; an index of 32 to 63 is refused NO_WINDOW naming no window (R84, R179). -/
def carryRenew (p : Port) (words : List Word) (s : State) : OwnerOut :=
  let w := words.getD 0 0
  match windowOfIndex (controlIndex w) with
  | none => ownerRefused s .noWindow none
  | some i => renewByPort p i (renewTag w) s

/-- A WITHDRAW write (R95). -/
def carryWithdraw (p : Port) (words : List Word) (s : State) : OwnerOut :=
  let tag := withdrawTag (words.getD 0 0)
  if s.requests.any (Request.named p tag) then
    ownerOk (setTickets p (s.tickets.get p + 1)
      { s with requests := s.requests.eraseP (Request.named p tag) })
  else ownerRefused s .noSuchTag none

/-- A release that is carried out: the last holder's retires the window, another's leaves it (R34). -/
def releaseHold (p : Port) (i : WinIdx) (s : State) : State :=
  let others := withoutPort (s.win i).ports p
  if others = 0 then enterDraining i s
  else
    let s1 := orphanPort i p s
    s1.setWin i { s1.win i with ports := others }

/-- A RELEASE of window `i` (R33). Where a REVOKE or a lapse with auto-retire was taken first, the drain may have
ended in that event (R38): the window is FREE and the refusal is NO_WINDOW, where R34, R40 and R82 say RETIRING
(log 25). -/
def releaseByPort (p : Port) (i : WinIdx) (s : State) : OwnerOut :=
  let w := s.win i
  if !w.grantTo p then ownerRefused s .noWindow (some i)
  else if w.retiring then ownerRefused s .retiring (some i)
  else ownerOk (releaseHold p i s)

/-- A RELEASE write; an index of 32 to 63 is refused NO_WINDOW naming no window (R33, R179). -/
def carryRelease (p : Port) (words : List Word) (s : State) : OwnerOut :=
  match windowOfIndex (controlIndex (words.getD 0 0)) with
  | none => ownerRefused s .noWindow none
  | some i => releaseByPort p i s

/-- Case 2 of R110: the ceiling is empty, or the index names no GRANT in force for the port. -/
def pushBad (p : Port) (ceiling : Rights) (i : Option WinIdx) (s : State) : Bool :=
  ceiling == 0 ||
    match i with
    | none => true
    | some i => !((s.win i).grantTo p && (s.win i).inForce)

/-- Case 4 of R110: the range or the ceiling is wider than the top frame's. -/
def pushWidens (w : Window) (ceiling : Rights) (top : Frame) : Bool :=
  !rangeWithin w.portBase.toNat w.size top.portBase.toNat (classSize top.sizeClass)
    || ceiling &&& ~~~top.ceiling != 0

/-- Push a frame over window `i` (R111). -/
def pushFrame (p : Port) (i : WinIdx) (ceiling : Rights) (s : State) : State :=
  let w := s.win i
  { s with scopes := s.scopes.set p (⟨i, ceiling, w.portBase, w.sizeClass, false⟩ :: s.scopes.get p) }.setWin i
    { w with scopeRefs := w.scopeRefs + 1 }

/-- Cases 3 to 5 of R110 for window `i`. -/
def pushOver (p : Port) (i : WinIdx) (ceiling : Rights) (s : State) : OwnerOut :=
  match s.scopes.get p with
  | [] => ownerOk (pushFrame p i ceiling s)
  | top :: _ =>
    if top.orphan then ownerRefused s .scopeLost (some i)
    else if pushWidens (s.win i) ceiling top then ownerRefused s .scopeWiden (some i)
    else ownerOk (pushFrame p i ceiling s)

/-- A SCOPE_PUSH write (R110, R179). -/
def carryPush (p : Port) (words : List Word) (s : State) : OwnerOut :=
  let w := words.getD 0 0
  let i := windowOfIndex (controlIndex w)
  if Config.stackPlaces ≤ (s.scopes.get p).length then ownerRefused s .stackLimit i
  else if pushBad p (pushCeiling w) i s then ownerRefused s .scopeBad i
  else match i with
    | none => ownerRefused s .scopeBad none
    | some i => pushOver p i (pushCeiling w) s

/-- A SCOPE_POP write; its data word is not used (R112). -/
def carryPop (p : Port) (_words : List Word) (s : State) : OwnerOut :=
  match s.scopes.get p with
  | [] => ownerRefused s .stackEmpty none
  | f :: fs =>
    let s1 := { s with scopes := s.scopes.set p fs }
    ownerOk (if f.orphan then s1 else lowerRef f.window s1)

/-- A CLEAR_FLAGS write (R156). -/
def carryClearFlags (p : Port) (words : List Word) (s : State) : OwnerOut :=
  ownerOk (s.setPort p ((s.port p).clearFlags (controlMask (words.getD 0 0))))

/-- The owning block of a well-shaped control write, by its aperture word (spec/01 section 1.3). -/
def ownerOf (n : Nat) : Port → List Word → State → OwnerOut :=
  match n with
  | 0 => carryNew
  | 2 => carryRenew
  | 3 => carryWithdraw
  | 4 => carryRelease
  | 5 => carryPush
  | 6 => carryPop
  | 7 => carryClearFlags
  | _ => fun _ _ s => ownerOk s

/-- The oldest waiting entry is replaced by itself settled with the owner's answer; a refusal is one fault
event of kind CONTROL (R12). -/
def settleRouted (p : Port) (place : Nat) (e : Entry) (out : OwnerOut) : State :=
  match out.2 with
  | none => setEntry p place (e.settle (okResponse [])) out.1
  | some (reason, window) =>
    faultEvent p reason .control e.access.address window
      (setEntry p place (e.settle (refusedResponse e.access reason)) out.1)

/-- The last data beat `w` of the routed control write at a place: the owning block carries it out at once
and the entry is settled (R12). -/
def carryRouted (owner : Port → List Word → State → OwnerOut) (p : Port) (place : Nat) (e : Entry) (w : Word)
    (s : State) : State :=
  settleRouted p place { e with received := some e.access.beats, kept := e.kept ++ [w] } (owner p (e.kept ++ [w]) s)

/-- A routed control write carried out at its last data beat, after which settled responses leave (R8, R12). -/
def finishRouted (owner : Port → List Word → State → OwnerOut) (p : Port) (place : Nat) (e : Entry) (w : Word)
    (s : State) : State :=
  depart p (carryRouted owner p place e w s)

/-- The port takes data beats: PORST is released, no soft reset is in progress, the port is not in reset
(R15, R17, R177). -/
def takesBeats (s : State) (p : Port) : Bool := !s.porst && !s.softReset && (s.port p).state != .inReset

/-- The next data beat of port `p` is the last of a routed control write: the place and the entry of that write
(R5, R12). -/
def routedBeatDue (s : State) (p : Port) : Option (Nat × Entry) :=
  if takesBeats s p && (s.port p).discard == 0 then
    match oldestWaiting (s.port p).pending with
    | some (place, e) =>
      if e.decision == .routed && e.received.getD 0 + 1 == e.access.beats then some (place, e) else none
    | none => none
  else none

/-- That write is at aperture word `n`. -/
def controlBeatDue (s : State) (p : Port) (n : Nat) : Option (Nat × Entry) :=
  (routedBeatDue s p).filter fun x => apertureWordOf x.2.access == n

/-- The event in which word `w`, the last data beat of port `p`'s control write at aperture word `n`,
arrives and `owner` carries the write out. Where no such beat is due, the event does not take place. -/
def controlWrite (owner : Port → List Word → State → OwnerOut) (n : Nat) (p : Port) (w : Word) (s : State) : State :=
  match controlBeatDue s p n with
  | some (place, e) => grantDecision (finishRouted owner p place e w s)
  | none => s

/-- NEW_REQUEST: the second data beat of a NEW write (R91). -/
def execNewRequest (p : Port) (w : Word) (s : State) : Host.Outcome State Fault Refusal :=
  .next (controlWrite carryNew 0 p w s)

/-- PORT_RENEW: the data beat of a RENEW write (R84). -/
def execPortRenew (p : Port) (w : Word) (s : State) : Host.Outcome State Fault Refusal :=
  .next (controlWrite carryRenew 2 p w s)

/-- WITHDRAW: the data beat of a WITHDRAW write (R95). -/
def execWithdraw (p : Port) (w : Word) (s : State) : Host.Outcome State Fault Refusal :=
  .next (controlWrite carryWithdraw 3 p w s)

/-- RELEASE: the data beat of a RELEASE write (R33). -/
def execRelease (p : Port) (w : Word) (s : State) : Host.Outcome State Fault Refusal :=
  .next (controlWrite carryRelease 4 p w s)

/-- SCOPE_PUSH: the data beat of a SCOPE_PUSH write (R110). -/
def execScopePush (p : Port) (w : Word) (s : State) : Host.Outcome State Fault Refusal :=
  .next (controlWrite carryPush 5 p w s)

/-- SCOPE_POP: the data beat of a SCOPE_POP write (R112). -/
def execScopePop (p : Port) (w : Word) (s : State) : Host.Outcome State Fault Refusal :=
  .next (controlWrite carryPop 6 p w s)

/-- PORT_CLEAR_FLAGS: the data beat of a CLEAR_FLAGS write (R156). -/
def execPortClearFlags (p : Port) (w : Word) (s : State) : Host.Outcome State Fault Refusal :=
  .next (controlWrite carryClearFlags 7 p w s)

end Sys2Proof.Machine
end

