-- ==== Sys2Proof/Machine/Ports.lean ====
section
/-! DEFINITION. The requester side of a port: acceptance of accesses and arrival of write data (spec/01,
spec/03 sections 3.1 and 3.8). -/

namespace Sys2Proof.Machine

/-! ## Acceptance of a data access -/

/-- The access kind of a fault event of a data access (R4). -/
def dataFaultKind (acc : Access) : FaultKind :=
  match acc.kind with
  | .read => .read
  | .write => .write

/-- The decision the Admission Unit's verdict puts into the entry (R4). -/
def Verdict.decision : Verdict → Decision
  | .admitted addrs lanes trimmed bound => .admitted addrs lanes trimmed bound
  | .allAborted => .allAborted
  | .refused reason _ => .refused reason

/-- Bind an admitted access to its window (R37, R63). -/
def bindWindow (bound : Option WinIdx) (s : State) : State :=
  match bound with
  | some i => s.setWin i { s.win i with inFlight := (s.win i).inFlight + 1 }
  | none => s

/-- What a verdict changes beside the entry: binding, last admitted address and TRIMMED of an admission
(R61, R63), TRIMMED of a write aborted whole (R62), the fault event of a refusal (R64). -/
def applyVerdict (p : Port) (acc : Access) (v : Verdict) (s : State) : State :=
  match v with
  | .admitted _ _ trimmed bound =>
    let s1 := bindWindow bound s
    let u := { s1.port p with lastAdmitted := some acc.address }
    s1.setPort p (if trimmed then u.setFlags trimmedFlag else u)
  | .allAborted => s.setPort p ((s.port p).setFlags trimmedFlag)
  | .refused reason window => faultEvent p reason (dataFaultKind acc) acc.address window s

/-- The verdict on a data access: the Admission Unit's of an ACTIVE port, PORT_STOPPED of a STOPPED one
(R4). -/
def dataVerdict (p : Port) (acc : Access) (s : State) : Verdict :=
  if (s.port p).state == .stopped then .refused .portStopped none else admission p acc s

/-- A data access accepted and decided (R4, R47). -/
def acceptData (p : Port) (acc : Access) (s : State) : State :=
  let v := dataVerdict p acc s
  enterPending p (newEntry acc v.decision) (applyVerdict p acc v s)

/-- ACCEPT_DATA_ACCESS: port `p` accepts the offered data access, where R3 lets it; the access stays
offered otherwise (R3, R47, log 3). -/
def execAcceptDataAccess (p : Port) (acc : Access) (s : State) : Host.Outcome State Fault Refusal :=
  .next (if canAccept s p acc && !acc.isControl then grantDecision (acceptData p acc s) else s)

/-! ## Acceptance of a control access -/

/-- A control access refused at acceptance, with its fault event (R4, R11). -/
def refuseControl (p : Port) (acc : Access) (reason : Reason) (s : State) : State :=
  enterPending p (newEntry acc (.refused reason)) (faultEvent p reason .control acc.address none s)

/-- The word a well-shaped control read returns, and the state after it is supplied (R11, R13, R71,
R104). -/
def controlRead (p : Port) (acc : Access) (s : State) : Word × State :=
  if apertureWordOf acc = 8 then serveReply p s
  else if apertureWordOf acc = 9 then (portWord s p, s)
  else (s.clock.time, s)

/-- A control read served at acceptance (R11). -/
def serveControl (p : Port) (acc : Access) (s : State) : State :=
  let out := controlRead p acc s
  enterPending p (newEntry acc (.served out.1)) out.2

/-- A control access accepted: the first check of R11 that applies decides. -/
def acceptControl (p : Port) (acc : Access) (s : State) : State :=
  if acc.kind == .write && (s.port p).state == .stopped then refuseControl p acc .portStopped s
  else if !wellShaped acc then refuseControl p acc .controlBad s
  else match acc.kind with
    | .read => serveControl p acc s
    | .write => enterPending p (newEntry acc .routed) s

/-- ACCEPT_CONTROL_ACCESS: port `p` accepts the offered control access, where R3 lets it; the access stays
offered otherwise (R3, R11, log 3). -/
def execAcceptControlAccess (p : Port) (acc : Access) (s : State) : Host.Outcome State Fault Refusal :=
  .next (if canAccept s p acc && acc.isControl then acceptControl p acc s else s)

/-- The one-beat read of aperture word 8. -/
def replyAccess : Access where
  kind := .read
  address := 4194296
  beats := 1
  lanes := [0]

/-- REPLY_READ: port `p` accepts the one-beat read of aperture word 8 (R3, R104). -/
def execReplyRead (p : Port) (s : State) : Host.Outcome State Fault Refusal :=
  .next (if canAccept s p replyAccess then serveControl p replyAccess s else s)

/-! ## Write data -/

/-- What has become of a waiting write when its last data beat has arrived (R7); a routed control write is
settled by its owner instead. -/
def Entry.dataComplete (e : Entry) : Entry :=
  match e.decision with
  | .admitted _ _ _ _ => { e with progress := .ready, deadlineCount := none }
  | .allAborted => e.settle trimmedResponse
  | .refused reason => e.settle (refusedResponse e.access reason)
  | .routed | .served _ => e

/-- The decisions whose data words are kept (R5). -/
def Decision.keepsData : Decision → Bool
  | .admitted _ _ _ _ | .routed => true
  | .allAborted | .refused _ | .served _ => false

/-- The entry with one more data beat received (R5). -/
def Entry.takeBeat (e : Entry) (w : Word) : Entry :=
  { e with
    received := some (e.received.getD 0 + 1)
    kept := if e.decision.keepsData then e.kept ++ [w] else e.kept }

/-- A data beat reaches the waiting write at a place (R5 case 2). -/
def beatToEntry (p : Port) (w : Word) (place : Nat) (e : Entry) (s : State) : State :=
  if e.received.getD 0 + 1 < e.access.beats then setEntry p place (e.takeBeat w) s
  else match e.decision with
    | .routed => finishRouted (ownerOf (apertureWordOf e.access)) p place e w s
    | .admitted _ _ _ _ | .allAborted | .refused _ | .served _ =>
      depart p (setEntry p place (e.takeBeat w).dataComplete s)

/-- A data beat arrives: the first case of R5 that applies. -/
def dataBeat (p : Port) (w : Word) (s : State) : State :=
  if 0 < (s.port p).discard then s.setPort p { s.port p with discard := (s.port p).discard - 1 }
  else match oldestWaiting (s.port p).pending with
    | some (place, e) => beatToEntry p w place e s
    | none => s

/-- WRITE_DATA_BEAT: a data beat arrives at port `p` (R5); it is dropped while the port is in reset or a
soft reset is in progress (R15, R17). -/
def execWriteDataBeat (p : Port) (w : Word) (s : State) : Host.Outcome State Fault Refusal :=
  .next (if takesBeats s p then grantDecision (dataBeat p w s) else s)

end Sys2Proof.Machine
end

