-- ==== Sys2Proof/Machine/Clock.lean ====
section
/-! DEFINITION. LCLK periods, write-data deadlines, lease ticks and expiries (spec/01 section 1.1.4;
spec/04). -/

namespace Sys2Proof.Machine

/-- LCLK acts on the part: PORST is released and no soft reset is in progress (R17, R88, R174). -/
def clockActs (s : State) : Bool := !s.porst && !s.softReset

/-! ## Expiries -/

/-- The transition at the expiry of window `i`, whose entry the tick has removed (R79, R80, R81). -/
def expiryOf (i : WinIdx) (s : State) : State :=
  let w := s.win i
  match w.phase with
  | .arming => enterHeld i s
  | .held => if w.kind == .grant && w.taper != 0 then enterPhase i .taper w.taper s else enterLapsed i s
  | .taper => enterLapsed i s
  | .free | .lapsed | .draining | .scrubWait | .scrubbing => s

/-- The entry at the head of the expiry list is removed and its window expires (R78). -/
def expireHead (e : Expiry) (s : State) : State := expiryOf e.window (removeExpiry e.window s)

/-- Expiries in list order while the head's deadline is reached, at most `fuel` of them (R78). -/
def expireReached : Nat → State → State
  | 0, s => s
  | fuel + 1, s =>
    match s.clock.expiry with
    | [] => s
    | e :: _ => if deadlineReached s.clock.time e.deadline then expireReached fuel (expireHead e s) else s

/-- Lease time advances by 1 and a new tick period begins (R69, R78). -/
def advanceTime (s : State) : State :=
  { s with clock := { s.clock with
      prescaler := 0
      periodDivisor := s.clock.divisor
      time := s.clock.time + 1 } }

/-- A lease tick with all its expiries (R78). An entry inserted by an expiry is not reached at this tick,
so the entries that stand at the tick bound the expiries. -/
def leaseTick (s : State) : State :=
  let s1 := advanceTime s
  expireReached s1.clock.expiry.length s1

/-- The prescaler count reaches the period divisor at the next counted LCLK period (R69). -/
def tickDue (s : State) : Bool := s.clock.run && decide (s.clock.periodDivisor ≤ s.clock.prescaler + 1)

/-- LEASE_TICK: the lease tick of the LCLK period that completes the tick period (R69, R78). The event does
not take place where no tick is due. -/
def execLeaseTick (s : State) : Host.Outcome State Fault Refusal :=
  .next (if clockActs s && tickDue s then grantDecision (leaseTick s) else s)

/-- The expiry of window `i`, in phase `ph`, stands next in the expiry list and is reached at a lease
time. -/
def expiryDueAt (time : LeaseTime) (ph : Phase) (i : WinIdx) (s : State) : Bool :=
  match s.clock.expiry with
  | [] => false
  | e :: _ => e.window == i && (s.win i).phase == ph && deadlineReached time e.deadline

/-- The event in which window `i` expires from phase `ph`: alone where its deadline is already reached, and
otherwise within the lease tick that reaches it, which is taken whole (R78). Where neither stands the event
does not take place (log 17). -/
def expiryEvent (ph : Phase) (i : WinIdx) (s : State) : State :=
  if !clockActs s then s
  else if expiryDueAt s.clock.time ph i s then
    match s.clock.expiry with
    | [] => s
    | e :: _ => grantDecision (expireHead e s)
  else if tickDue s && expiryDueAt (s.clock.time + 1) ph i s then grantDecision (leaseTick s)
  else s

/-- ONSET_EXPIRY: window `i` expires out of ARMING (R79). -/
def execOnsetExpiry (i : WinIdx) (s : State) : Host.Outcome State Fault Refusal :=
  .next (expiryEvent .arming i s)

/-- HOLD_EXPIRY: window `i` expires out of HELD (R80). -/
def execHoldExpiry (i : WinIdx) (s : State) : Host.Outcome State Fault Refusal :=
  .next (expiryEvent .held i s)

/-- TAPER_EXPIRY: window `i` expires out of TAPER (R81). -/
def execTaperExpiry (i : WinIdx) (s : State) : Host.Outcome State Fault Refusal :=
  .next (expiryEvent .taper i s)

/-! ## Write-data deadlines -/

/-- The data beats a write still misses. -/
def Entry.missing (e : Entry) : Nat := e.access.beats - e.received.getD 0

/-- What the deadline does to the entry at a place, by its decision (R6). -/
def deadlineOutcome (p : Port) (place : Nat) (e : Entry) (s : State) : State :=
  let timeout := setEntry p place (e.settle (refusedResponse e.access .dataTimeout)) s
  match e.decision with
  | .admitted _ _ _ bound =>
    faultEvent p .dataTimeout .write e.access.address bound (releaseBound bound timeout)
  | .allAborted => faultEvent p .dataTimeout .write e.access.address none timeout
  | .routed => faultEvent p .dataTimeout .control e.access.address none timeout
  | .refused reason => setEntry p place (e.settle (refusedResponse e.access reason)) s
  | .served _ => s

/-- The data deadline of the entry at a place is reached: the missing beats join the discard count, and the
entry is settled (R6). -/
def deadlineSettled (p : Port) (place : Nat) (e : Entry) (s : State) : State :=
  deadlineOutcome p place e (s.setPort p { s.port p with discard := (s.port p).discard + e.missing })

/-- A data deadline, after which settled responses leave (R6, R8). -/
def dataDeadline (p : Port) (place : Nat) (e : Entry) (s : State) : State := depart p (deadlineSettled p place e s)

/-- The entry at a place waits for data, with a deadline count that satisfies a test. -/
def deadlineEntry (test : Nat → Bool) (p : Port) (place : Nat) (s : State) : Option Entry :=
  match (s.port p).pending[place]? with
  | some e => if e.progress == .waitingData && e.deadlineCount.any test then some e else none
  | none => none

/-- The data deadline of the entry at a place, where its count satisfies the test. -/
def deadlineIf (test : Nat → Bool) (p : Port) (place : Nat) (s : State) : State :=
  match deadlineEntry test p place s with
  | some e => dataDeadline p place e s
  | none => s

/-- DATA_DEADLINE: the LCLK period that brings the deadline count of the entry at a place of port `p` from
1 to 0, seen as that deadline alone (R6, log 17). -/
def execDataDeadline (p : Port) (place : Nat) (s : State) : Host.Outcome State Fault Refusal :=
  .next (if clockActs s then grantDecision (deadlineIf (· ≤ 1) p place s) else s)

/-! ## An LCLK period -/

/-- One LCLK period of an entry that waits for data (R6). -/
def Entry.countDown (e : Entry) : Entry :=
  if e.progress == .waitingData then { e with deadlineCount := e.deadlineCount.map (· - 1) } else e

/-- One LCLK period of a port's deadline counts (R6). -/
def Piu.countDown (u : Piu) : Piu := { u with pending := u.pending.map Entry.countDown }

/-- The counts of an LCLK period: every deadline count falls by 1, and the prescaler count rises by 1 where
the run flag is SET and no tick is due, whose own step returns it to 0 (R6, R69). -/
def countPeriod (s : State) : State :=
  { s with
    piu := ⟨s.piu.a.countDown, s.piu.b.countDown, s.piu.c.countDown, s.piu.d.countDown⟩
    clock := { s.clock with
      prescaler := if s.clock.run && !tickDue s then s.clock.prescaler + 1 else s.clock.prescaler } }

/-- A part of an LCLK period; the flag says that a tick is still due in it. A data deadline is taken at the
place its entry has by then. -/
def runPart (x : State × Bool) (part : LclkPart) : State × Bool :=
  match part with
  | .tick => if x.2 then (leaseTick x.1, false) else x
  | .deadline p place => (deadlineIf (· == 0) p place x.1, x.2)
  | .grant => (grantDecision x.1, x.2)

/-- Every part a period can hold, so that nothing due in it is left undone: the tick, then each port's
entries. A first entry whose response leaves makes the second one the first. -/
def wholePeriod : List LclkPart :=
  .tick :: (allPorts.flatMap fun p => [.deadline p 0, .deadline p 0, .deadline p 1])

/-- What falls together in an LCLK period, in the order the operand gives, and then what the operand left
out (log 4). -/
def lclkPeriod (order : List LclkPart) (s : State) : State :=
  grantDecision ((order ++ wholePeriod).foldl runPart (countPeriod s, tickDue s)).1

/-- LCLK_PERIOD: one period of LCLK (R6, R69). -/
def execLclkPeriod (order : List LclkPart) (s : State) : Host.Outcome State Fault Refusal :=
  .next (if clockActs s then lclkPeriod order s else s)

end Sys2Proof.Machine
end

