-- ==== Sys2Proof/Machine/Resets.lean ====
section
/-! DEFINITION. The reset kinds: port reset, power-on reset, and what a soft reset does to the blocks
(spec/01 section 1.4; spec/10 sections 10.4 and 10.5). -/

namespace Sys2Proof.Machine

/-- The window an entry is still bound to: that of its admission, until it is settled (R37). -/
def Entry.binding (e : Entry) : Option WinIdx :=
  if e.progress == .settled then none else e.decision.boundWindow

/-- Release the bindings of a list of entries, in list order (R37). -/
def releaseEntries (es : List Entry) (s : State) : State := es.foldl (fun t e => releaseBound e.binding t) s

/-! ## Port reset -/

/-- The order of the discards (log 5). -/
def discardOrder (order : DiscardOrder) (es : List Entry) : List Entry :=
  match order with
  | .oldestFirst => es
  | .youngestFirst => es.reverse

/-- The entry's burst is under way. -/
def Entry.underWay (e : Entry) : Bool := e.progress == .executing

/-- The PIU's own state at the assertion of its line (R15). -/
def Piu.resetLine (u : Piu) : Piu :=
  { u with
    state := .inReset
    line := true
    pending := (u.pending.filter Entry.underWay).map fun e => { e with dropped := true }
    discard := 0
    lastAdmitted := none
    flags := 0 }

/-- The assertion of port `p`'s reset line, block by block (R15, R106, R118). During a soft reset too the port's
stack, requests and replies go, where the closing words of R119 and R107 keep them till its end (log 29). -/
def portReset (p : Port) (order : DiscardOrder) (s : State) : State :=
  let gone := (s.port p).pending.filter fun e => !e.underWay
  emptyStack p (dropRequests p
    (releaseEntries (discardOrder order gone) (s.setPort p (s.port p).resetLine)))

/-- An event that meets the assertion of port `p`'s reset line and is taken first. The entry is settled with all
that goes with it, and its response does not leave: the assertion discards it (R15, log 28). Where no such event
is due it does not take place. -/
def meetReset (p : Port) (s : State) (meeting : ResetMeeting) : State :=
  match meeting with
  | .deadline place =>
    match deadlineEntry (· ≤ 1) p place s with
    | some e => if clockActs s then deadlineSettled p place e s else s
    | none => s
  | .lastBeat w =>
    match routedBeatDue s p with
    | some (place, e) => carryRouted (ownerOf (apertureWordOf e.access)) p place e w s
    | none => s

/-- PORT_RESET_ASSERT: port `p`'s reset line is asserted, after the events of its own that meet it and are taken
first (R15, R46, R106, R118, R133), during a soft reset too (log 29). -/
def execPortResetAssert (p : Port) (order : ResetOrder) (s : State) : Host.Outcome State Fault Refusal :=
  .next (if (s.port p).line then s
    else grantDecision (portReset p order.discards (order.first.foldl (meetReset p) s)))

/-- PORT_RESET_RELEASE: port `p`'s reset line is released (R16). -/
def execPortResetRelease (p : Port) (s : State) : Host.Outcome State Fault Refusal :=
  .next (if (s.port p).line then s.setPort p { s.port p with line := false, state := .active } else s)

/-! ## The values after power-on reset and after a soft reset -/

/-- The port state after a reset of the whole part, by the level of the port's line (R14). -/
def stateByLine (line : Bool) : PortState := if line then .inReset else .active

/-- A PIU after a reset of the whole part; its line keeps its level, and the responses already sent stay
sent (R18, log 8). -/
def Piu.afterReset (u : Piu) : Piu :=
  { Piu.powerOn with state := stateByLine u.line, line := u.line, sent := u.sent }

/-- Every block but the Management Port and the SRAM at its power-on values (R18, R45, R52, R88, R107, R119,
R135, R146, R162). -/
def resetBlocks (s : State) : State :=
  { s with
    piu := ⟨s.piu.a.afterReset, s.piu.b.afterReset, s.piu.c.afterReset, s.piu.d.afterReset⟩
    windows := Vector.replicate 32 Window.cleared
    map := FixedMap.powerOn
    clock := LeaseClock.powerOn
    requests := []
    replies := PerPort.all []
    tickets := PerPort.all Config.tickets
    scopes := PerPort.all []
    seq := Sequencer.powerOn
    scrub := ScrubEngine.powerOn
    faults := FaultRecorder.powerOn
    attn := Attention.powerOn
    softReset := false }

/-! ## Power-on reset -/

/-- The part with every block at its power-on values; select keeps its level, and no byte of the SRAM has
been written (R177, R178, log 6). -/
def powerOnValues (s : State) : State :=
  { resetBlocks s with mgmt := { Mgmt.powerOn with select := s.mgmt.select }, sram := [] }

/-- PORST_ASSERT: PORST is asserted; the part holds its power-on values, and its SRAM content is
unspecified again (R18, R88, R135, R177, log 6). -/
def execPorstAssert (s : State) : Host.Outcome State Fault Refusal :=
  .next (if s.porst then s else { powerOnValues s with porst := true, powerOns := s.powerOns + 1 })

/-- POWER_ON_RESET: PORST is released; each port is ACTIVE or IN_RESET by its line at that moment (R14,
R164, R178). -/
def execPowerOnReset (s : State) : Host.Outcome State Fault Refusal :=
  .next (if s.porst then { powerOnValues s with porst := false } else s)

/-! ## Soft reset -/

/-- Port `p` answers every entry ABORTED, oldest first; bindings are released (R17). -/
def abortPort (s : State) (p : Port) : State :=
  let u := s.port p
  releaseEntries u.pending
    (s.setPort p { u with
      pending := []
      sent := u.sent ++ u.pending.map fun e => abortedResponse e.access })

/-- Every PIU answers its entries ABORTED (R17, log 9). -/
def abortAll (s : State) : State := allPorts.foldl abortPort s

/-- The end of a soft reset: power-on values, but for the SRAM content and the open frame (R176). -/
def softResetFinish (s : State) : State :=
  { resetBlocks s with mgmt := { s.mgmt with malformed := false, lastResult := Result.powerOn } }

/-- A soft reset begins: with the SRAM idle it ends at once, under a scrub burst the entries are answered at
once, and under a port burst they wait for it (R17, R174). One in progress goes on (R175). -/
def softResetBegin (s : State) : State :=
  if s.softReset then s
  else
    let s1 := { s with softReset := true }
    match s1.seq.burst with
    | none => softResetFinish (abortAll s1)
    | some b =>
      match b.source with
      | .scrub => abortAll s1
      | .port _ => s1

end Sys2Proof.Machine
end

