-- ==== Sys2Proof/Machine/Sequencer.lean ====
section
/-! DEFINITION. Grants and completions of bursts, ends of drains and of fills, and the end of a soft reset
(spec/07; spec/08; spec/10 section 10.4). -/

namespace Sys2Proof.Machine

/-! ## Grant -/

/-- BURST_GRANT: the grant decision, where one is due (R124, R125, R126). Every event that makes one due
takes it itself (log 22). -/
def execBurstGrant (s : State) : Host.Outcome State Fault Refusal := .next (grantDecision s)

/-! ## What follows a completion -/

/-- The SRAM is idle: a soft reset in progress ends, and otherwise a grant decision is taken (R129, R130,
R174). -/
def afterBurst (s : State) : State :=
  let s1 := { s with seq := { s.seq with burst := none } }
  if s1.softReset then softResetFinish (abortAll s1) else grantDecision s1

/-! ## A port burst -/

/-- The data words of a completed READ, one for each beat (R127, R129). -/
def readData (b : Burst) (s : State) : List Word := b.addrs.map s.sramWord

/-- What the burst leaves in the SRAM: the lanes of its beats (R127). -/
def burstWrites (b : Burst) (s : State) : State :=
  match b.kind with
  | .write => { s with sram := writeBeats b.addrs b.lanes b.data s.sram }
  | .read => s

/-- Lanes were dropped at admission. -/
def Decision.trimmed : Decision → Bool
  | .admitted _ _ t _ => t
  | .allAborted | .refused _ | .routed | .served _ => false

/-- The response of a completed burst (R7, R9). -/
def burstResponse (e : Entry) (data : List Word) : Response :=
  match e.access.kind with
  | .read => okResponse data
  | .write => if e.decision.trimmed then trimmedResponse else okResponse []

/-- The port's entry under way, its oldest, is settled and leaves; marked dropped, it leaves without a
response (R7, R8, R15, R129). -/
def settleBurst (p : Port) (data : List Word) (s : State) : State :=
  match (s.port p).pending with
  | [] => s
  | e :: es =>
    depart p (s.setPort p { s.port p with
      pending := if e.dropped then es else e.settle (burstResponse e data) :: es })

/-- The completion of port `p`'s burst (R129). The words of a READ are those of the SRAM at the completion
(log 7). -/
def portCompletion (p : Port) (b : Burst) (s : State) : State :=
  afterBurst (settleBurst p (readData b s) (releaseBound b.bound (burstWrites b s)))

/-- PORT_BURST_COMPLETE: the port burst under way completes (R129). -/
def execPortBurstComplete (s : State) : Host.Outcome State Fault Refusal :=
  .next (match s.seq.burst with
    | none => s
    | some b =>
      match b.source with
      | .port p => portCompletion p b s
      | .scrub => s)

/-! ## A scrub burst -/

/-- The fill of the window in the progress record is complete (R140). -/
def fillComplete (i : WinIdx) (s : State) : State :=
  let s1 := ({ s with scrub := { s.scrub with progress := none } }.setWin i Window.cleared).raise causeScrubDone
  match s1.scrub.list with
  | [] => { s1 with scrub := { s1.scrub with state := .idle } }
  | _ :: _ => scrubTake s1

/-- A completed group is counted (R130, R139), and the last one completes the fill (R140). -/
def countGroup (s : State) : State :=
  match s.scrub.progress with
  | none => s
  | some g =>
    if g.wordsRemaining ≤ 4 then fillComplete g.window s
    else { s with scrub := { s.scrub with
      progress := some ⟨g.window, g.nextOffset + 4, g.wordsRemaining - 4⟩ } }

/-- The completion of a scrub burst (R130). -/
def scrubCompletion (b : Burst) (s : State) : State := afterBurst (countGroup (burstWrites b s))

/-- SCRUB_BURST_COMPLETE: the scrub burst under way completes (R130). -/
def execScrubBurstComplete (s : State) : Host.Outcome State Fault Refusal :=
  .next (match s.seq.burst with
    | none => s
    | some b =>
      match b.source with
      | .scrub => scrubCompletion b s
      | .port _ => s)

/-! ## Ends of drains, fills and soft resets -/

/-- DRAIN_END: window `i`'s drain ends, where it is DRAINING with a count of 0 (R38). Every event that brings
that about ends the drain itself (log 17). -/
def execDrainEnd (i : WinIdx) (s : State) : Host.Outcome State Fault Refusal :=
  .next (if (s.win i).phase == .draining && (s.win i).inFlight == 0 then grantDecision (endDrain i s) else s)

/-- The burst under way is the scrub burst that completes its window's fill (R140). -/
def lastGroupUnderWay (s : State) : Bool :=
  match s.seq.burst, s.scrub.progress with
  | some b, some g => b.source == .scrub && decide (g.wordsRemaining ≤ 4)
  | _, _ => false

/-- FILL_COMPLETE: the completion of the scrub burst that leaves no words remaining (R140). The event does not
take place where the burst under way is another (log 17). -/
def execFillComplete (s : State) : Host.Outcome State Fault Refusal :=
  .next (match s.seq.burst with
    | none => s
    | some b => if lastGroupUnderWay s then scrubCompletion b s else s)

/-- SOFT_RESET_END: the event in which a soft reset in progress ends: the completion of the burst under way,
after which every PIU has answered its entries (R174, R176, log 17). -/
def execSoftResetEnd (s : State) : Host.Outcome State Fault Refusal :=
  .next (if s.softReset then
    match s.seq.burst with
    | none => afterBurst s
    | some b =>
      match b.source with
      | .port p => portCompletion p b s
      | .scrub => scrubCompletion b s
    else s)

end Sys2Proof.Machine
end

