-- ==== Sys2Proof/Machine/Frames.lean ====
section
/-! DEFINITION. Management frames: opening, clock periods, and the ends of frames other than actions
(spec/10 sections 10.1 and 10.2; spec/11 sections 11.3 and 11.4). -/

namespace Sys2Proof.Machine

/-! ## Opening and shifting -/

/-- A frame opens: SELECTOR with a bit count of 0 (R164). -/
def Mgmt.opened (m : Mgmt) : Mgmt :=
  { m with select := true, frame := .selector, bitCount := 0, selector := 0, captured := 0, incoming := 0,
           dataOut := false }

/-- FRAME_OPEN: select is asserted. A frame opens when none is open and PORST is released; the level of
select is seen in any case (R164, R177). -/
def execFrameOpen (s : State) : Host.Outcome State Fault Refusal :=
  .next (if s.mgmt.select then s
    else if s.mgmt.frame == .closed && !s.porst then { s with mgmt := s.mgmt.opened }
    else { s with mgmt := { s.mgmt with select := true } })

/-- What the capture of a selector holds; all zeros for an unassigned one (R165). -/
def captureOf (sel : BitVec 8) (s : State) : Payload :=
  match registerOf sel with
  | some r => r.content s
  | none => 0

/-- Payload length of a selector; 0 for an unassigned one, whose bits are discarded (R163, log 13). -/
def payloadLength (sel : BitVec 8) : Nat :=
  match registerOf sel with
  | some r => r.length
  | none => 0

/-- A bit taken in SELECTOR, most significant first; the eighth makes the capture (R164, R165). -/
def selectorBit (dataIn : Bool) (s : State) : State :=
  let sel := (s.mgmt.selector <<< 1) ||| BitVec.ofNat 8 dataIn.toNat
  if s.mgmt.bitCount + 1 < 8 then
    { s with mgmt := { s.mgmt with selector := sel, bitCount := s.mgmt.bitCount + 1 } }
  else
    { s with mgmt := { s.mgmt with
        selector := sel, bitCount := 0, frame := .payload, captured := captureOf sel s, incoming := 0 } }

/-- A clock period in PAYLOAD: the next captured bit is driven and one bit is taken; the first bit beyond the
payload length is counted and no more (R166). -/
def Mgmt.payloadBit (m : Mgmt) (dataIn : Bool) : Mgmt :=
  let len := payloadLength m.selector
  if m.bitCount < len then
    { m with
      dataOut := m.captured.getLsbD (len - 1 - m.bitCount)
      incoming := (m.incoming <<< 1) ||| BitVec.ofNat 160 dataIn.toNat
      bitCount := m.bitCount + 1 }
  else { m with dataOut := false, bitCount := min (m.bitCount + 1) (len + 1) }

/-- MANAGEMENT_CLOCK_PERIOD: one period of the management clock with the level of data in. It is ignored
while select is released, while no frame is open, and during PORST (R164, R166, R177). -/
def execManagementClockPeriod (dataIn : Bool) (s : State) : Host.Outcome State Fault Refusal :=
  .next (if s.porst || !s.mgmt.select then s
    else match s.mgmt.frame with
      | .closed => s
      | .selector => selectorBit dataIn s
      | .payload => { s with mgmt := s.mgmt.payloadBit dataIn })

/-! ## The end of a frame -/

/-- What the release of select ends: no frame, a malformed one, an exact one of a read-only register, or an
exact one that applies an update (R167, R169, R171). -/
inductive FrameEnd where
  | noFrame | malformed | readOnly | attnEnable | attnAck | clock | scrub | fixedMap
  | portArm (p : Port)
  | action (code : BitVec 5)
  deriving DecidableEq, Repr

/-- The end of an exact-length frame of a register, with its incoming content (R167, R169). -/
def exactEnd (r : Register) (incoming : Payload) : FrameEnd :=
  match r with
  | .ident | .status | .requestHead | .fault _ | .window _ => .readOnly
  | .attnEnable => .attnEnable
  | .attnAck => .attnAck
  | .clock => .clock
  | .scrub => .scrub
  | .fixedMap => .fixedMap
  | .port p => .portArm p
  | .action => .action (actionRecordOf incoming).code

/-- The case of R167 that the release of select would take now. -/
def frameEnd (m : Mgmt) : FrameEnd :=
  match m.frame with
  | .closed => .noFrame
  | .selector => .malformed
  | .payload =>
    match registerOf m.selector with
    | none => .malformed
    | some r => if m.bitCount = r.length then exactEnd r m.incoming else .malformed

/-- Select is released and the frame is CLOSED (R163, R167, log 12). -/
def Mgmt.closed (m : Mgmt) (malformed : Bool) : Mgmt where
  select := false
  dataOut := false
  frame := .closed
  bitCount := 0
  selector := 0
  captured := 0
  incoming := 0
  malformed := malformed
  lastResult := m.lastResult

/-- The state after the release of select, before any update. -/
def closeFrame (malformed : Bool) (s : State) : State := { s with mgmt := s.mgmt.closed malformed }

/-- The release of select that ends a frame of the given kind and applies an update of the incoming content.
Where the open frame would end otherwise, the event does not take place (log 18). -/
def frameUpdate (kind : FrameEnd) (update : Payload → State → State) (s : State) : State :=
  if frameEnd s.mgmt = kind then update s.mgmt.incoming (closeFrame false s) else s

/-- MALFORMED_FRAME: select is released and the frame ends malformed, or no frame was open (R167, log 14). -/
def execMalformedFrame (s : State) : Host.Outcome State Fault Refusal :=
  .next (match frameEnd s.mgmt with
    | .malformed => closeFrame true s
    | .noFrame => { s with mgmt := { s.mgmt with select := false } }
    | .readOnly | .attnEnable | .attnAck | .clock | .scrub | .fixedMap | .portArm _ | .action _ => s)

/-- READ_ONLY_FRAME: an exact frame of a read-only register ends (R167). -/
def execReadOnlyFrame (s : State) : Host.Outcome State Fault Refusal :=
  .next (frameUpdate .readOnly (fun _ t => t) s)

/-- An ATTN_ENABLE update (R160). -/
def applyAttnEnable (x : Payload) (s : State) : State :=
  { s with attn := { s.attn with enables := enableUpdate (x.getLsbD 7) (x.extractLsb' 0 5) s.attn.enables } }

/-- ATTN_ENABLE: the exact frame that turns enables on or off (R160). -/
def execAttnEnable (s : State) : Host.Outcome State Fault Refusal :=
  .next (frameUpdate .attnEnable applyAttnEnable s)

/-- An ATTN_ACK update (R161, R105). -/
def applyAttnAck (x : Payload) (s : State) : State :=
  { s with attn := { s.attn with
      pending := s.attn.pending &&& ~~~(acknowledged s.requests.isEmpty (x.extractLsb' 0 5)) } }

/-- ATTN_ACK: the exact frame that acknowledges causes (R161). -/
def execAttnAck (s : State) : Host.Outcome State Fault Refusal :=
  .next (frameUpdate .attnAck applyAttnAck s)

/-- The divisor of its code: 0 stands for 65,536 (R180). -/
def divisorOfCode (c : BitVec 16) : Nat := if c = 0 then 65536 else c.toNat

/-- The Lease Clock after a CLOCK update (R70). -/
def LeaseClock.update (c : LeaseClock) (run : Bool) (share : BitVec 4) (divisor : Nat) : LeaseClock :=
  match c.run, run with
  | false, false => { c with divisor := divisor, share := share, periodDivisor := divisor }
  | true, true => { c with divisor := divisor, share := share }
  | _, _ => { c with divisor := divisor, share := share, run := run, prescaler := 0, periodDivisor := divisor }

/-- A CLOCK update (R70, R180). -/
def applyClock (x : Payload) (s : State) : State :=
  let w := payloadWord 2 0 x
  { s with clock := s.clock.update (w.getLsbD 31) (w.extractLsb' 27 4) (divisorOfCode (w.extractLsb' 0 16)) }

/-- CLOCK: the exact frame that writes divisor, run flag and scrub share together (R70). -/
def execClock (s : State) : Host.Outcome State Fault Refusal := .next (frameUpdate .clock applyClock s)

/-- A SCRUB update: the fill pattern alone (R141). -/
def applyPattern (x : Payload) (s : State) : State :=
  { s with scrub := { s.scrub with pattern := payloadWord 4 0 x } }

/-- SCRUB_UPDATE: the exact frame that writes the fill pattern (R141). -/
def execScrubUpdate (s : State) : Host.Outcome State Fault Refusal := .next (frameUpdate .scrub applyPattern s)

/-- The four entries of a granule byte (spec/11 section 11.4.3). -/
def mapEntriesOf (b : Byte) : PerPort MapEntry where
  a := mapEntryOfCode (b.extractLsb' 0 2)
  b := mapEntryOfCode (b.extractLsb' 2 2)
  c := mapEntryOfCode (b.extractLsb' 4 2)
  d := mapEntryOfCode (b.extractLsb' 6 2)

/-- The fixed map of 17 payload bytes, byte 0 shifted first (spec/11 section 11.4.3). -/
def fixedMapOf (x : Payload) : FixedMap where
  enabled := x.getLsbD 135
  entries := Vector.ofFn fun g : Fin 16 => mapEntriesOf (x.extractLsb' (8 * (15 - g.val)) 8)

/-- A FIXED_MAP update: the enable and all 64 entries together (R54). -/
def applyFixedMap (x : Payload) (s : State) : State := { s with map := fixedMapOf x }

/-- FIXED_MAP: the exact frame that writes the fixed map (R52, R54). -/
def execFixedMap (s : State) : Host.Outcome State Fault Refusal := .next (frameUpdate .fixedMap applyFixedMap s)

/-- A PORT update: the stop-on-fault arm alone (R157). -/
def applyArm (p : Port) (x : Payload) (s : State) : State :=
  s.setPort p { s.port p with arm := x.getLsbD 23 }

/-- PORT_ARM_UPDATE: the exact frame that writes the stop-on-fault arm of the port its selector names
(R157). -/
def execPortArmUpdate (s : State) : Host.Outcome State Fault Refusal :=
  .next (match frameEnd s.mgmt with
    | .portArm p => frameUpdate (.portArm p) (applyArm p) s
    | .noFrame | .malformed | .readOnly | .attnEnable | .attnAck | .clock | .scrub | .fixedMap | .action _ => s)

end Sys2Proof.Machine
end

