-- ==== Sys2Proof/Machine/Actions.lean ====
section
/-! DEFINITION. Actions: the ends of exact ACTION frames (spec/10 section 10.3, and the rule of each
action). -/

namespace Sys2Proof.Machine

/-! ## What every action shares -/

/-- The last result is replaced (R171, R172). -/
def setResult (code : ResultCode) (window : Option WinIdx) (time : LeaseTime) (s : State) : State :=
  { s with mgmt := { s.mgmt with lastResult := ⟨code, window, time⟩ } }

/-- The end of an exact ACTION frame with action code `code`: the action is taken on the state as it stands,
and its result record is kept with the lease time at that moment (R171, R173). So it is during a soft reset too
(R175), also where the closing words of R119 and R107 keep the scope stacks, the queue and the reply lists as they
are till its end (log 29). -/
def actionFrame (code : BitVec 5) (act : ActionRecord → State → ActionOut) (s : State) : State :=
  frameUpdate (.action code)
    (fun x t =>
      let out := act (actionRecordOf x) t
      setResult out.2.1 out.2.2 t.clock.time out.1) s

/-- The action changed the state, DONE. -/
def actionDone (s : State) (window : Option WinIdx) : ActionOut := (s, .done, window)

/-- The action changed nothing (R172). -/
def actionFailed (s : State) (code : ResultCode) (window : Option WinIdx) : ActionOut := (s, code, window)

/-- An action on a window: an index of 32 to 63 gives BAD_INDEX, naming no window (R43, R180). -/
def onWindow (r : ActionRecord) (act : WinIdx → State → ActionOut) (s : State) : ActionOut :=
  match windowOfIndex r.index with
  | none => actionFailed s .badIndex none
  | some i => act i s

/-- NULL_ACTION: the null code; nothing is carried out, and the last result stays (R171). -/
def execNullAction (s : State) : Host.Outcome State Fault Refusal :=
  .next (frameUpdate (.action 0) (fun _ t => t) s)

/-- BAD_ACTION: an action code of 16 to 31; the result is BAD_ACTION (R171, R180). -/
def execBadAction (s : State) : Host.Outcome State Fault Refusal :=
  .next (match frameEnd s.mgmt with
    | .action code =>
      if 16 ≤ code.toNat then setResult .badAction none s.clock.time (closeFrame false s) else s
    | .noFrame | .malformed | .readOnly | .attnEnable | .attnAck | .clock | .scrub | .fixedMap
    | .portArm _ => s)

/-! ## Creation -/

/-- Check 1 of R23. -/
def badGeometry (n : NewWindow) : Bool :=
  n.ports == 0 || decide (n.sizeClass.toNat < 4) || decide (20 < n.sizeClass.toNat)
    || n.portBase.toNat % classSize n.sizeClass != 0
    || (n.kind == .grant && n.target.toNat % classSize n.sizeClass != 0)

/-- Check 2 of R23. -/
def badEnvelope (n : NewWindow) : Bool :=
  n.hold == 0 || (n.kind == .fence && (n.taper != 0 || n.scrub))

/-- Check 3 of R23. -/
def targetOutside (n : NewWindow) : Bool :=
  n.kind == .grant && decide (Config.sramWords < n.target.toNat + classSize n.sizeClass)

/-- An occupied GRANT shares a port and a port word with a set of ports and a range (R24). -/
def Window.collides (w : Window) (ports : PortSet) (base size : Nat) : Bool :=
  w.occupied && w.kind == .grant && w.ports &&& ports != 0 && rangesOverlap w.portBase.toNat w.size base size

/-- Check 4 of R23: OVERLAP as R24 states. -/
def overlaps (n : NewWindow) (s : State) : Bool :=
  n.kind == .grant &&
    allWindows.any fun i => (s.win i).collides n.ports n.portBase.toNat (classSize n.sizeClass)

/-- An occupied GRANT shares an SRAM word with a range, and one of the two is to be scrubbed (R25). -/
def Window.blocksTarget (w : Window) (scrub : Bool) (base size : Nat) : Bool :=
  w.occupied && w.kind == .grant && rangesOverlap (w.target.getD 0).toNat w.size base size && (scrub || w.scrub)

/-- Check 5 of R23: TARGET_BUSY as R25 states. -/
def targetBusy (n : NewWindow) (s : State) : Bool :=
  n.kind == .grant &&
    allWindows.any fun i => (s.win i).blocksTarget n.scrub n.target.toNat (classSize n.sizeClass)

/-- The first check of R23 that fails. -/
def creationFault (n : NewWindow) (s : State) : Option ResultCode :=
  if badGeometry n then some .badGeometry
  else if badEnvelope n then some .badEnvelope
  else if targetOutside n then some .targetRange
  else if overlaps n s then some .overlap
  else if targetBusy n s then some .targetBusy
  else none

/-- The FREE window of lowest index (R27). -/
def freeWindow (s : State) : Option WinIdx := allWindows.find? fun i => (s.win i).phase == .free

/-- The record of a new window before its first phase (R26, R28). -/
def newRecord (n : NewWindow) : Window where
  phase := .free
  kind := n.kind
  ports := n.ports
  portBase := n.portBase
  sizeClass := n.sizeClass
  target := if n.kind == .grant then some (n.target.setWidth 20) else none
  rights := n.rights
  writeLanes := n.writeLanes
  lanePolicy := if n.kind == .grant then n.lanePolicy else .strict
  scrub := n.scrub
  autoRetire := n.autoRetire
  onset := n.onset
  hold := n.hold
  taper := n.taper
  scale := n.scale
  renewBudget := n.renewBudget
  deadline := none
  inFlight := 0
  scopeRefs := 0
  origin := n.origin

/-- A newly created window enters its first phase (R29). -/
def enterFirst (i : WinIdx) (s : State) : State :=
  if (s.win i).onset = 0 then enterHeld i s else enterPhase i .arming (s.win i).onset s

/-- A creation (R23, R26, R27, R29). -/
def createWindow (n : NewWindow) (s : State) : ActionOut :=
  match creationFault n s with
  | some code => actionFailed s code none
  | none =>
    match freeWindow s with
    | none => actionFailed s .noFreeWindow none
    | some i => actionDone (enterFirst i (s.setWin i (newRecord n))) (some i)

/-- CREATE (R26). -/
def execCreate (s : State) : Host.Outcome State Fault Refusal :=
  .next (actionFrame 1 (fun r t => createWindow (createOperands r) t) s)

/-! ## The head of the request queue -/

/-- The head is answered: it leaves the queue, and its reply takes over its ticket (R98, R99, R101). -/
def answerHead (r : Request) (outcome : ReplyOutcome) (s : State) : State :=
  placeReply r.port ⟨r.tag, outcome⟩ { s with requests := s.requests.tail }

/-- The head check of R97, and the action on the head where it passes. -/
def onHead (a : ActionRecord) (act : Request → State → ActionOut) (s : State) : ActionOut :=
  match s.requests with
  | [] => actionFailed s .queueEmpty none
  | r :: _ => if r.port == a.port && r.tag == a.tag then act r s else actionFailed s .staleHead none

/-- A NEW head (R98, R100). -/
def grantNew (a : ActionRecord) (r : Request) (f : NewFields) (s : State) : ActionOut :=
  match createWindow (grantOperands r.port r.tag f a) s with
  | (t, .done, some i) => actionDone (answerHead r (.granted i) t) (some i)
  | (_, code, window) => actionFailed s code window

/-- The window can be renewed by the supervisor: HELD, TAPER or LAPSED (R86, R99). -/
def Window.renewable (w : Window) : Bool := w.phase == .held || w.phase == .taper || w.phase == .lapsed

/-- An EXTEND head (R99, R100). -/
def grantExtend (a : ActionRecord) (r : Request) (i : WinIdx) (s : State) : ActionOut :=
  if (s.win i).grantTo r.port && (s.win i).renewable then
    actionDone (answerHead r (.granted i) (renewWindow i a.budget s)) (some i)
  else actionFailed s .wrongState (some i)

/-- GRANT_HEAD of a head that has passed the check, by its kind. -/
def grantHead (a : ActionRecord) (r : Request) (s : State) : ActionOut :=
  match r.body with
  | .new f => grantNew a r f s
  | .extend i => grantExtend a r i s

/-- GRANT_HEAD (R97, R98, R99). During a soft reset too the head leaves, where R107 says that the queue and the reply
lists keep their contents (log 29). -/
def execGrantHead (s : State) : Host.Outcome State Fault Refusal :=
  .next (actionFrame 2 (fun a t => onHead a (grantHead a) t) s)

/-- REFUSE_HEAD (R97, R101). During a soft reset too the head leaves, where R107 says that the queue and the reply
lists keep their contents (log 29). -/
def execRefuseHead (s : State) : Host.Outcome State Fault Refusal :=
  .next (actionFrame 3
    (fun a t => onHead a (fun r u => actionDone (answerHead r (.refused a.refusal) u) none) t) s)

/-! ## Windows -/

/-- In ARMING, HELD, TAPER or LAPSED: it can be amended and revoked (R30, R35). -/
def Window.amendable (w : Window) : Bool := w.live || w.phase == .lapsed

/-- With a new port set the GRANT would overlap another occupied GRANT (R24, R30). -/
def amendOverlaps (i : WinIdx) (ports : PortSet) (s : State) : Bool :=
  (s.win i).kind == .grant &&
    allWindows.any fun j => j != i && (s.win j).collides ports (s.win i).portBase.toNat (s.win i).size

/-- Orphan the frames of port `p` if it was a holder of window `i` and is not in the new set (R31). -/
def orphanRemoved (i : WinIdx) (old new : PortSet) (s : State) (p : Port) : State :=
  if hasPort old p && !hasPort new p then orphanPort i p s else s

/-- The amended fields (R31). -/
def Window.amend (w : Window) (a : ActionRecord) : Window :=
  { w with
    ports := a.ports
    rights := a.rights
    writeLanes := a.writeLanes
    lanePolicy := if w.kind == .grant then a.lanePolicy else .strict
    renewBudget := a.budget
    autoRetire := a.autoRetire }

/-- An amendment that is applied (R31). -/
def applyAmend (i : WinIdx) (a : ActionRecord) (s : State) : State :=
  let s1 := allPorts.foldl (orphanRemoved i (s.win i).ports a.ports) s
  s1.setWin i ((s1.win i).amend a)

/-- AMEND of window `i` (R30). -/
def amendWindow (a : ActionRecord) (i : WinIdx) (s : State) : ActionOut :=
  if !(s.win i).amendable then actionFailed s .wrongState (some i)
  else if a.ports = 0 then actionFailed s .badGeometry (some i)
  else if amendOverlaps i a.ports s then actionFailed s .overlap (some i)
  else actionDone (applyAmend i a s) (some i)

/-- AMEND (R30, R31). During a soft reset it orphans frames as R113 says, where R119 says that none is (log 29). -/
def execAmend (s : State) : Host.Outcome State Fault Refusal :=
  .next (actionFrame 4 (fun a t => onWindow a (amendWindow a) t) s)

/-- Management RENEW of window `i` (R86). -/
def renewAction (a : ActionRecord) (i : WinIdx) (s : State) : ActionOut :=
  if (s.win i).renewable then actionDone (renewWindow i a.budget s) (some i)
  else actionFailed s .wrongState (some i)

/-- RENEW (R83, R86). -/
def execRenew (s : State) : Host.Outcome State Fault Refusal :=
  .next (actionFrame 5 (fun a t => onWindow a (renewAction a) t) s)

/-- ACTIVATE of window `i` (R32). -/
def activateWindow (i : WinIdx) (s : State) : ActionOut :=
  if (s.win i).phase == .arming && (s.win i).onset == 15 then actionDone (enterHeld i s) (some i)
  else actionFailed s .wrongState (some i)

/-- ACTIVATE (R32). -/
def execActivate (s : State) : Host.Outcome State Fault Refusal :=
  .next (actionFrame 6 (fun a t => onWindow a activateWindow t) s)

/-- REVOKE of window `i` (R35); a drain that ends at once may make the Scrub Engine a candidate (R124). -/
def revokeWindow (i : WinIdx) (s : State) : ActionOut :=
  if (s.win i).amendable then actionDone (grantDecision (enterDraining i s)) (some i)
  else actionFailed s .wrongState (some i)

/-- REVOKE (R35, R36). During a soft reset it orphans frames as R113 says, where R119 says that none is (log 29). -/
def execRevoke (s : State) : Host.Outcome State Fault Refusal :=
  .next (actionFrame 7 (fun a t => onWindow a revokeWindow t) s)

/-! ## Ports and faults -/

/-- UNWIND (R117). During a soft reset it empties the stack, where R119 says that the stacks keep their contents
(log 29). -/
def execUnwind (s : State) : Host.Outcome State Fault Refusal :=
  .next (actionFrame 8 (fun a t => actionDone (emptyStack a.port t) none) s)

/-- RESUME_PORT of port `p` (R158). -/
def resumePort (p : Port) (s : State) : ActionOut :=
  if (s.port p).state == .stopped then actionDone (s.setPort p { s.port p with state := .active }) none
  else actionFailed s .wrongState none

/-- RESUME_PORT (R158). -/
def execResumePort (s : State) : Host.Outcome State Fault Refusal :=
  .next (actionFrame 9 (fun a t => resumePort a.port t) s)

/-- CLEAR_FLAGS (R156). -/
def execClearFlags (s : State) : Host.Outcome State Fault Refusal :=
  .next (actionFrame 10
    (fun a t => actionDone (t.setPort a.port ((t.port a.port).clearFlags a.mask)) none) s)

/-- ACK_FAULT of a slot number (R153). -/
def ackFault (slot : BitVec 6) (s : State) : ActionOut :=
  if h : slot.toNat < 8 then
    if s.faults.slots[slot.toNat].isSome then
      actionDone { s with faults := { s.faults with slots := s.faults.slots.set slot.toNat none } } none
    else actionFailed s .wrongState none
  else actionFailed s .badIndex none

/-- ACK_FAULT (R153). -/
def execAckFault (s : State) : Host.Outcome State Fault Refusal :=
  .next (actionFrame 11 (fun a t => ackFault a.index t) s)

/-- CLEAR_OVERFLOW (R153). -/
def execClearOverflow (s : State) : Host.Outcome State Fault Refusal :=
  .next (actionFrame 12 (fun _ t => actionDone { t with faults := { t.faults with overflow := 0 } } none) s)

/-! ## The Scrub Engine and the whole part -/

/-- The window in the progress record. -/
def progressWindow (s : State) : Option WinIdx := s.scrub.progress.map (·.window)

/-- SCRUB_HOLD against the engine state (R142). -/
def scrubHold (s : State) : ActionOut :=
  if s.scrub.state == .running then
    actionDone { s with scrub := { s.scrub with state := .paused } } (progressWindow s)
  else actionFailed s .wrongState none

/-- SCRUB_HOLD (R142). -/
def execScrubHold (s : State) : Host.Outcome State Fault Refusal :=
  .next (actionFrame 13 (fun _ t => scrubHold t) s)

/-- SCRUB_RESUME against the engine state; the engine may be a candidate again (R143, R124). -/
def scrubResume (s : State) : ActionOut :=
  if s.scrub.state == .paused then
    actionDone (grantDecision { s with scrub := { s.scrub with state := .running } }) (progressWindow s)
  else actionFailed s .wrongState none

/-- SCRUB_RESUME (R143). -/
def execScrubResume (s : State) : Host.Outcome State Fault Refusal :=
  .next (actionFrame 14 (fun _ t => scrubResume t) s)

/-- SOFT_RESET: its own result is kept first, since the end of the soft reset may replace it in the same
event (R174, R175, R176). -/
def execSoftReset (s : State) : Host.Outcome State Fault Refusal :=
  .next (frameUpdate (.action 15) (fun _ t => softResetBegin (setResult .done none t.clock.time t)) s)

end Sys2Proof.Machine
end

