-- ==== Sys2Proof/Machine/Dispatch.lean ====
section
/-! DEFINITION. The meaning of each command, one arm for each row of spec/opcode_table.json. -/

namespace Sys2Proof.Machine

def exec (i : Instr) (s : State) : Host.Outcome State Fault Refusal :=
  match i with
  | .acceptDataAccess p acc => Sys2Proof.Machine.execAcceptDataAccess p acc s
  | .acceptControlAccess p acc => Sys2Proof.Machine.execAcceptControlAccess p acc s
  | .replyRead p => Sys2Proof.Machine.execReplyRead p s
  | .writeDataBeat p w => Sys2Proof.Machine.execWriteDataBeat p w s
  | .newRequest p w => Sys2Proof.Machine.execNewRequest p w s
  | .portRenew p w => Sys2Proof.Machine.execPortRenew p w s
  | .withdraw p w => Sys2Proof.Machine.execWithdraw p w s
  | .release p w => Sys2Proof.Machine.execRelease p w s
  | .scopePush p w => Sys2Proof.Machine.execScopePush p w s
  | .scopePop p w => Sys2Proof.Machine.execScopePop p w s
  | .portClearFlags p w => Sys2Proof.Machine.execPortClearFlags p w s
  | .dataDeadline p place => Sys2Proof.Machine.execDataDeadline p place s
  | .lclkPeriod order => Sys2Proof.Machine.execLclkPeriod order s
  | .leaseTick => Sys2Proof.Machine.execLeaseTick s
  | .onsetExpiry w => Sys2Proof.Machine.execOnsetExpiry w s
  | .holdExpiry w => Sys2Proof.Machine.execHoldExpiry w s
  | .taperExpiry w => Sys2Proof.Machine.execTaperExpiry w s
  | .burstGrant => Sys2Proof.Machine.execBurstGrant s
  | .portBurstComplete => Sys2Proof.Machine.execPortBurstComplete s
  | .scrubBurstComplete => Sys2Proof.Machine.execScrubBurstComplete s
  | .drainEnd w => Sys2Proof.Machine.execDrainEnd w s
  | .fillComplete => Sys2Proof.Machine.execFillComplete s
  | .portResetAssert p order => Sys2Proof.Machine.execPortResetAssert p order s
  | .portResetRelease p => Sys2Proof.Machine.execPortResetRelease p s
  | .porstAssert => Sys2Proof.Machine.execPorstAssert s
  | .powerOnReset => Sys2Proof.Machine.execPowerOnReset s
  | .softResetEnd => Sys2Proof.Machine.execSoftResetEnd s
  | .malformedFrame => Sys2Proof.Machine.execMalformedFrame s
  | .readOnlyFrame => Sys2Proof.Machine.execReadOnlyFrame s
  | .attnEnable => Sys2Proof.Machine.execAttnEnable s
  | .attnAck => Sys2Proof.Machine.execAttnAck s
  | .clock => Sys2Proof.Machine.execClock s
  | .scrubUpdate => Sys2Proof.Machine.execScrubUpdate s
  | .fixedMap => Sys2Proof.Machine.execFixedMap s
  | .portArmUpdate => Sys2Proof.Machine.execPortArmUpdate s
  | .nullAction => Sys2Proof.Machine.execNullAction s
  | .badAction => Sys2Proof.Machine.execBadAction s
  | .create => Sys2Proof.Machine.execCreate s
  | .grantHead => Sys2Proof.Machine.execGrantHead s
  | .refuseHead => Sys2Proof.Machine.execRefuseHead s
  | .amend => Sys2Proof.Machine.execAmend s
  | .renew => Sys2Proof.Machine.execRenew s
  | .activate => Sys2Proof.Machine.execActivate s
  | .revoke => Sys2Proof.Machine.execRevoke s
  | .unwind => Sys2Proof.Machine.execUnwind s
  | .resumePort => Sys2Proof.Machine.execResumePort s
  | .clearFlags => Sys2Proof.Machine.execClearFlags s
  | .ackFault => Sys2Proof.Machine.execAckFault s
  | .clearOverflow => Sys2Proof.Machine.execClearOverflow s
  | .scrubHold => Sys2Proof.Machine.execScrubHold s
  | .scrubResume => Sys2Proof.Machine.execScrubResume s
  | .softReset => Sys2Proof.Machine.execSoftReset s
  | .frameOpen => Sys2Proof.Machine.execFrameOpen s
  | .managementClockPeriod dataIn => Sys2Proof.Machine.execManagementClockPeriod dataIn s

end Sys2Proof.Machine
end

