-- ==== Sys2Proof/Safety.lean ====
section
/-! DEFINITION. Invariants of the part and the conditions the statements are written with. -/

namespace Sys2Proof.Safety
open Sys2Proof.Machine

/-! ## Invariants -/

/-- The SRAM content is in its canonical form. -/
def sramCanonical (s : State) : Prop := Memory.wf s.sram = true

/-- A ticket of a port is free, held by a queued request, or held by an unread reply (R90). -/
def ticketsCounted (s : State) : Prop :=
  ∀ p : Port, s.tickets.get p + s.requests.countP (fun r => r.port == p) + (s.replies.get p).length = 4

/-- Every list and count stays within the places the part has (R3, R94, R103, R108, R121, R150). -/
def withinPlaces (s : State) : Prop :=
  (∀ p : Port, (s.port p).pending.length ≤ 2 ∧ (s.scopes.get p).length ≤ 8) ∧
    s.requests.length ≤ 16 ∧ s.seq.shareCount ≤ 15 ∧ s.faults.overflow ≤ 255

/-- A port is IN_RESET exactly while its reset line is asserted (R14). -/
def linesMatch (s : State) : Prop := ∀ p : Port, (s.port p).state = .inReset ↔ (s.port p).line = true

/-- The oldest entry of a pending list is never SETTLED: its response has left (R8). -/
def oldestUnsettled (s : State) : Prop :=
  ∀ (p : Port) (e : Entry) (es : List Entry), (s.port p).pending = e :: es → e.progress ≠ .settled

/-- The Scrub Engine is IDLE exactly without a progress record, and its list is then empty (R136). -/
def engineMatches (s : State) : Prop :=
  (s.scrub.state = .idle ↔ s.scrub.progress = none) ∧ (s.scrub.state = .idle → s.scrub.list = [])

/-- No source is a candidate. -/
def noCandidate (s : State) : Prop := scrubCandidate s = false ∧ ∀ p : Port, portCandidate s p = false

/-- No grant decision is due: the SRAM is busy, a soft reset is in progress, PORST is asserted, or there is no
candidate (R124). -/
def noGrantDue (s : State) : Prop :=
  s.seq.burst.isSome = true ∨ s.softReset = true ∨ s.porst = true ∨ noCandidate s

/-! ## Conditions of commands -/

/-- PORST is released and no soft reset is in progress. -/
abbrev running (s : State) : Prop := s.porst = false ∧ s.softReset = false

/-- Port `p` accepts an access of a kind (R3). -/
abbrev accepts (s : State) (p : Port) (kind : AccessKind) : Prop :=
  ((s.port p).state = .active ∨ (s.port p).state = .stopped) ∧ running s ∧
    (s.port p).pending.length < 2 ∧ (kind = .write → (s.port p).discard = 0)

/-- The entry of an access at acceptance: a READ is READY, a WRITE waits for its data (R4, R6, R7). -/
def entryAtAcceptance (acc : Access) (dec : Decision) : Entry where
  access := acc
  decision := dec
  received := if acc.kind = .write then some 0 else none
  kept := []
  deadlineCount := if acc.kind = .write then some 256 else none
  progress := if acc.kind = .write then .waitingData else .ready
  response := none
  dropped := false

/-- A REFUSED response: a READ carries a data word 0 for each beat (R9). -/
def refusal (acc : Access) (reason : Reason) : Response where
  status := .refused
  reason := some reason
  data := if acc.kind = .read then List.replicate acc.beats 0 else []

/-- An ABORTED response: a READ carries a data word 0 for each beat (R9). -/
def aborted (acc : Access) : Response where
  status := .aborted
  reason := none
  data := if acc.kind = .read then List.replicate acc.beats 0 else []

/-- An entry of a pending list between the older and the younger ones. -/
structure Slot where
  older : List Entry
  entry : Entry
  younger : List Entry

/-- The slot is one of port `p`'s pending list, and no older entry is SETTLED (R8). -/
def stands (s : State) (p : Port) (q : Slot) : Prop :=
  (s.port p).pending = q.older ++ q.entry :: q.younger ∧ ∀ e ∈ q.older, e.progress ≠ .settled

/-- The slot's entry is the oldest that waits for data (R5). -/
def oldestWaits (q : Slot) : Prop :=
  q.entry.progress = .waitingData ∧ ∀ e ∈ q.older, e.progress ≠ .waitingData

/-- The entry is SETTLED. -/
def isSettled (e : Entry) : Bool := e.progress == .settled

/-- The settled entries at the front of port `p`'s list of `younger` entries leave; their responses go to the end
of `sent` (R8, log 8). -/
def followed (p : Port) (younger : List Entry) (s : State) : State :=
  s.setPort p { s.port p with
    pending := younger.dropWhile isSettled
    sent := (s.port p).sent ++ (younger.takeWhile isSettled).filterMap (·.response) }

/-- The slot's entry of port `p` answered: the oldest leaves at once, with the settled entries right behind it;
another waits in its place (R7, R8). -/
def answeredAt (p : Port) (q : Slot) (r : Response) (s : State) : State :=
  match q.older with
  | [] => followed p q.younger (s.setPort p { s.port p with sent := (s.port p).sent ++ [r] })
  | _ :: _ => s.setPort p { s.port p with
      pending := q.older ++
        { q.entry with progress := .settled, response := some r, deadlineCount := none } :: q.younger }

/-- A read answered at its acceptance by port `p` (R8, R11). -/
def servedRead (p : Port) (acc : Access) (dec : Decision) (r : Response) (s : State) : State :=
  answeredAt p ⟨(s.port p).pending, entryAtAcceptance acc dec, []⟩ r s

/-- An access refused at acceptance, after its fault event: a WRITE waits for its data, a READ is settled and
leaves if it is the oldest (R7, R8). -/
def refusedEntry (p : Port) (acc : Access) (reason : Reason) (s : State) : State :=
  if acc.kind = .write then
    s.setPort p { s.port p with pending := (s.port p).pending ++ [entryAtAcceptance acc (.refused reason)] }
  else servedRead p acc (.refused reason) (refusal acc reason) s

/-- The oldest write of port `p` that waits for data is a routed control write at aperture word `n` that misses
its last data beat, and the words before it are `kept` (R5, R12). -/
def lastBeatDue (s : State) (p : Port) (n : Nat) (q : Slot) (kept : List Word) : Prop :=
  running s ∧ (s.port p).state ≠ .inReset ∧ (s.port p).discard = 0 ∧ stands s p q ∧ oldestWaits q ∧
    q.entry.decision = .routed ∧ q.entry.access.kind = .write ∧
    q.entry.access.address.toNat = 4194288 + n ∧ q.entry.access.beats = kept.length + 1 ∧
    q.entry.received = some kept.length ∧ q.entry.kept = kept

/-- The slot with the last data beat received and kept (R5). -/
def withBeat (q : Slot) (w : Word) : Slot :=
  { q with entry := { q.entry with received := some q.entry.access.beats, kept := q.entry.kept ++ [w] } }

/-- A control write carried out at its last beat `w`: its entry is answered OK (R12). -/
def carriedOut (p : Port) (q : Slot) (w : Word) (s : State) : State := answeredAt p (withBeat q w) ⟨.ok, none, []⟩ s

/-- A control write refused by its owner: one fault event of kind CONTROL and the refusal (R12). -/
def refusedByOwner (p : Port) (q : Slot) (w : Word) (reason : Reason) (window : Option WinIdx) (s : State) : State :=
  answeredAt p (withBeat q w) ⟨.refused, some reason, []⟩
    (faultEvent p reason .control q.entry.access.address window s)

/-- The row's command and the arrival of the data beat `w` are one event with one outcome (log 1), which ends with
the grant decision that is due (R124, log 22). -/
def carriesOut (c : Instr) (p : Port) (w : Word) (s t : State) : Prop :=
  exec c s = .next (grantDecision t) ∧ exec (.writeDataBeat p w) s = .next (grantDecision t)

/-- The window is an occupied GRANT that includes the port. -/
abbrev holdsGrant (w : Window) (p : Port) : Prop :=
  w.phase ≠ .free ∧ w.kind = .grant ∧ hasPort w.ports p = true

/-- The window's port range holds the address (R19). -/
abbrev inRange (w : Window) (addr : PortAddr) : Prop :=
  w.portBase.toNat ≤ addr.toNat ∧ addr.toNat < w.portBase.toNat + 2 ^ w.sizeClass.toNat

/-- Window `i` is the one GRANT that answers for port `p` at the address (R24, R55). -/
abbrev matchedBy (s : State) (p : Port) (addr : PortAddr) (i : WinIdx) : Prop :=
  holdsGrant (s.win i) p ∧ inRange (s.win i) addr ∧
    ∀ j, j ≠ i → ¬ (holdsGrant (s.win j) p ∧ inRange (s.win j) addr)

/-- A FENCE acts on port `p` at the address: HELD, including the port, covering the address (R57). -/
abbrev fencedBy (s : State) (p : Port) (addr : PortAddr) (j : WinIdx) : Prop :=
  (s.win j).phase = .held ∧ (s.win j).kind = .fence ∧ hasPort (s.win j).ports p = true ∧
    inRange (s.win j) addr

/-- The fixed map decides the address (R53). -/
abbrev mapped (s : State) (addr : PortAddr) : Prop := s.map.enabled = true ∧ addr.toNat < 16384

/-- The SRAM addresses of an access's beats from port word `base` at SRAM word `target` (R2, R48, R57). -/
def relocated (acc : Access) (base target : Nat) : List SramAddr :=
  (List.range acc.beats).map fun i =>
    BitVec.ofNat 20 (target + (acc.address.toNat / 4 * 4 + (acc.address.toNat + i) % 4 - base))

/-- Step 1 lets the access pass with a ceiling: no frame, or a live top frame whose window covers the address
(R50). -/
def scopeAllows (s : State) (p : Port) (addr : PortAddr) (ceiling : Rights) : Prop :=
  (s.scopes.get p = [] ∧ ceiling = 3) ∨
    ∃ f fs, s.scopes.get p = f :: fs ∧ f.orphan = false ∧ inRange (s.win f.window) addr ∧ ceiling = f.ceiling

/-- `rights` and `lanes` are what the acting FENCEs take away at the address, all together (R57). -/
def fencesTake (s : State) (p : Port) (addr : PortAddr) (rights : Rights) (lanes : LaneSet) : Prop :=
  (∀ n, rights.getLsbD n = true ↔ ∃ j, fencedBy s p addr j ∧ (s.win j).rights.getLsbD n = true) ∧
    ∀ n, lanes.getLsbD n = true ↔ ∃ j, fencedBy s p addr j ∧ (s.win j).writeLanes.getLsbD n = true

/-- Step 7 of a READ under effective rights (R59). -/
def readVerdict (rights : Rights) (addrs : List SramAddr) (bound : Option WinIdx) : Verdict :=
  if hasRead rights = true then .admitted addrs [] false bound else .refused .readDenied bound

/-- Step 7 of a WRITE under effective rights, writable lanes and a lane policy (R60, R61, R62). -/
def writeVerdict (rights : Rights) (lanes : LaneSet) (policy : LanePolicy) (acc : Access) (addrs : List SramAddr)
    (bound : Option WinIdx) : Verdict :=
  if hasWrite rights = false then .refused .writeDenied bound
  else if ∀ l ∈ acc.lanes, l &&& ~~~lanes = 0 then .admitted addrs acc.lanes false bound
  else if policy = .strict then .refused .laneDenied bound
  else if ∀ l ∈ acc.lanes, l &&& lanes = 0 then .allAborted
  else .admitted addrs (acc.lanes.map fun l => l &&& lanes) true bound

/-- The SRAM addresses an access gets through window `w` (R57). -/
def through (w : Window) (acc : Access) : List SramAddr :=
  relocated acc w.portBase.toNat (w.target.getD 0).toNat

/-- A frame over the window with the ceiling is no wider than the top frame (R110). -/
abbrev narrower (w : Window) (ceiling : Rights) (top : Frame) : Prop :=
  top.portBase.toNat ≤ w.portBase.toNat ∧
    w.portBase.toNat + 2 ^ w.sizeClass.toNat ≤ top.portBase.toNat + 2 ^ top.sizeClass.toNat ∧
    ceiling &&& ~~~top.ceiling = 0

/-- Two fault records have one coalescing key (R150). -/
abbrev sameKey (x y : FaultRecord) : Prop := x.reason = y.reason ∧ x.port = y.port ∧ x.window = y.window

/-- A HELD slot has the key (R151). -/
abbrev keyHeld (f : FaultRecorder) (reason : Reason) (p : Port) (window : Option WinIdx) : Prop :=
  ∃ n : Fin 8, f.slots[n].any (fun x => x.reason == reason && x.port == p && x.window == window) = true

/-- The sticky flag of a reason's group: DENIED 1, BOUND 2, LIFE 4, PROTOCOL 8 (R155). -/
def groupMask (reason : Reason) : BitVec 5 :=
  if reason = .readDenied ∨ reason = .writeDenied ∨ reason = .laneDenied then 1
  else if reason = .scopeBound ∨ reason = .scopeLost ∨ reason = .scopeWiden ∨ reason = .scopeBad ∨
      reason = .stackLimit ∨ reason = .stackEmpty then 2
  else if reason = .noWindow ∨ reason = .notYet ∨ reason = .lapsed ∨ reason = .retiring then 4
  else 8

/-- A request of port `p` joins the queue: it holds a ticket, and REQUEST is set (R92, R105). -/
def joinsQueue (r : Request) (s : State) : State :=
  { s with
    requests := s.requests ++ [r]
    tickets := s.tickets.set r.port (s.tickets.get r.port - 1)
    attn := { s.attn with pending := s.attn.pending ||| 1 } }

/-- The tag is carried by no queued request and no unread reply of the port (R92). -/
abbrev tagFree (s : State) (p : Port) (tag : Tag) : Prop :=
  (∀ r ∈ s.requests, ¬ (r.port = p ∧ r.tag = tag)) ∧ ∀ r ∈ s.replies.get p, r.tag ≠ tag

/-- A request answered at once: the reply takes the ticket (R92). -/
def repliedAtOnce (p : Port) (r : Reply) (s : State) : State :=
  { s with
    replies := s.replies.set p (s.replies.get p ++ [r])
    tickets := s.tickets.set p (s.tickets.get p - 1) }

/-! ## Conditions of frames and actions -/

/-- A frame of the selector stands at exactly the payload length (R167). -/
abbrev exactFrame (s : State) (sel : BitVec 8) (length : Nat) : Prop :=
  s.mgmt.frame = .payload ∧ s.mgmt.selector = sel ∧ s.mgmt.bitCount = length

/-- The Management Port after the release of select (R163, R167); the closed frame's fields are 0 (log 12). -/
def released (m : Mgmt) (malformed : Bool) : Mgmt where
  select := false
  dataOut := false
  frame := .closed
  bitCount := 0
  selector := 0
  captured := 0
  incoming := 0
  malformed := malformed
  lastResult := m.lastResult

/-- The state after the release of select that ends an exact frame. -/
def frameDone (s : State) : State := { s with mgmt := released s.mgmt false }

/-- An exact ACTION frame stands, with an action code (R171). -/
abbrev actionStands (s : State) (code : BitVec 5) : Prop :=
  exactFrame s 8 128 ∧ (actionRecordOf s.mgmt.incoming).code = code

/-- The action record of the open frame. -/
def record (s : State) : ActionRecord := actionRecordOf s.mgmt.incoming

/-- The last result replaced (R172). -/
def withResult (code : ResultCode) (window : Option WinIdx) (time : LeaseTime) (s : State) : State :=
  { s with mgmt := { s.mgmt with lastResult := ⟨code, window, time⟩ } }

/-- An action that failed: the frame is closed, the result is its code, and nothing else has changed
(R172). -/
def actionFails (s : State) (code : ResultCode) (window : Option WinIdx) : State :=
  withResult code window s.clock.time (frameDone s)

/-- The index operand names window `i`. -/
abbrev namesWindow (s : State) (i : WinIdx) : Prop := (record s).index.toNat = i.val

/-! ## Windows -/

/-- The deadline a phase of a duration code gives at a lease time: none for codes 0 and 15 (R73, R76). -/
def deadlineOf (time : LeaseTime) (c : Code) (scale : BitVec 2) : Option LeaseTime :=
  if 1 ≤ c.toNat ∧ c.toNat ≤ 14 then some (time + BitVec.ofNat 32 (duration c scale)) else none

/-- The expiry list after window `i` enters a phase with a deadline or none: its old entry is gone, its new one
stands after every entry whose remaining time is equal or less (R76, R77). -/
def expiryAfter (time : LeaseTime) (i : WinIdx) (deadline : Option LeaseTime) (l : List Expiry) : List Expiry :=
  let kept := l.filter fun e => e.window != i
  match deadline with
  | none => kept
  | some d => kept.takeWhile (fun e => (e.deadline - time).toNat ≤ (d - time).toNat) ++
      ⟨i, d⟩ :: kept.dropWhile (fun e => (e.deadline - time).toNat ≤ (d - time).toNat)

/-- Window `i` in a phase of duration code `c`, everything else as it was (R76, R77). -/
def inPhase (i : WinIdx) (ph : Phase) (c : Code) (s : State) : State :=
  let d := deadlineOf s.clock.time c (s.win i).scale
  { s with clock := { s.clock with expiry := expiryAfter s.clock.time i d s.clock.expiry } }.setWin i
    { s.win i with phase := ph, deadline := d }

/-- A renewal of window `i` with a budget (R83). -/
def renewed (i : WinIdx) (budget : Code) (s : State) : State :=
  let t := inPhase i .held (s.win i).hold s
  t.setWin i { t.win i with renewBudget := budget }

/-- A frame after window `i` stopped giving rights: orphaned if it names it (R113). -/
def orphanedFrame (i : WinIdx) (f : Frame) : Frame :=
  if f.window = i then { f with orphan := true } else f

/-- A frame that counts in window `i`'s scope references (R109). -/
def countsFor (i : WinIdx) (f : Frame) : Bool := f.window == i && !f.orphan

/-- A frame pushed on port `p`'s stack, its window's references one higher (R111). -/
def pushed (p : Port) (f : Frame) (s : State) : State :=
  { s with scopes := s.scopes.set p (f :: s.scopes.get p) }.setWin f.window
    { s.win f.window with scopeRefs := (s.win f.window).scopeRefs + 1 }

/-- Every frame that names window `i` orphaned, in every stack (R113). -/
def orphaned (i : WinIdx) (s : State) : PerPort (List Frame) :=
  let o := List.map (orphanedFrame i)
  ⟨o s.scopes.a, o s.scopes.b, o s.scopes.c, o s.scopes.d⟩

/-- Window `i` out of the expiry list, its frames orphaned, in a phase without rights (R36, R81). -/
def withoutRights (i : WinIdx) (ph : Phase) (s : State) : State :=
  { s with
    clock := { s.clock with expiry := s.clock.expiry.filter fun e => e.window != i }
    scopes := orphaned i s }.setWin i
    { s.win i with phase := ph, deadline := none, scopeRefs := 0 }

/-- The drain of window `i` ends: FREE without the scrub flag, else SCRUBBING under an IDLE engine with an empty
list and SCRUB_WAIT behind a busy one (R38, R137, R138). -/
def drained (i : WinIdx) (s : State) : State :=
  if (s.win i).scrub = false then s.setWin i Window.cleared
  else if s.scrub.state = .idle ∧ s.scrub.list = [] then
    { s with scrub := { s.scrub with
      state := .running, progress := some ⟨i, 0, 2 ^ (s.win i).sizeClass.toNat⟩ } }.setWin i
      { s.win i with phase := .scrubbing }
  else { s with scrub := { s.scrub with list := s.scrub.list ++ [i] } }.setWin i { s.win i with phase := .scrubWait }

/-- One LCLK period of every deadline count (R6). -/
def deadlinesLowered (s : State) : State :=
  let lowered (u : Piu) : Piu := { u with pending := u.pending.map fun e =>
    if e.progress = .waitingData then { e with deadlineCount := e.deadlineCount.map (· - 1) } else e }
  { s with piu := ⟨lowered s.piu.a, lowered s.piu.b, lowered s.piu.c, lowered s.piu.d⟩ }

/-- Window `i` retired: DRAINING while accesses are bound, and otherwise its drain ends at once (R36, R38). -/
def retired (i : WinIdx) (s : State) : State :=
  let t := withoutRights i .draining s
  if (s.win i).inFlight ≠ 0 then t else drained i t

/-- An access bound to window `i` ends: the in-flight count falls by 1, and a drain that it brings to 0 ends
(R37, R38). -/
def unbound (i : WinIdx) (s : State) : State :=
  let t := s.setWin i { s.win i with inFlight := (s.win i).inFlight - 1 }
  if (s.win i).phase = .draining ∧ (s.win i).inFlight ≤ 1 then drained i t else t

/-- The binding of an access ends, where it has one (R37). -/
def unboundFrom (bound : Option WinIdx) (s : State) : State :=
  match bound with
  | some i => unbound i s
  | none => s

/-- The data deadline of the slot's entry: the missing beats join the discard count, the binding ends, and the
write is answered DATA_TIMEOUT with one fault event, or with the reason it was refused with (R6, R7). -/
def timedOut (p : Port) (q : Slot) (s : State) : State :=
  let missing := q.entry.access.beats - q.entry.received.getD 0
  let u := s.setPort p { s.port p with discard := (s.port p).discard + missing }
  let timeout := refusal q.entry.access .dataTimeout
  match q.entry.decision with
  | .admitted _ _ _ bound =>
    answeredAt p q timeout (faultEvent p .dataTimeout .write q.entry.access.address bound (unboundFrom bound u))
  | .allAborted => answeredAt p q timeout (faultEvent p .dataTimeout .write q.entry.access.address none u)
  | .routed => answeredAt p q timeout (faultEvent p .dataTimeout .control q.entry.access.address none u)
  | .refused reason => answeredAt p q (refusal q.entry.access reason) u
  | .served _ => u

/-- Window `i` lapses: it retires with auto-retire, else it stands in LAPSED and LAPSE is set (R81, logs 25 and
26). -/
def lapsed (i : WinIdx) (s : State) : State :=
  if (s.win i).autoRetire = true then retired i s else (withoutRights i .lapsed s).raise 4

/-- Window `i` expires: ARMING enters HELD; HELD enters TAPER if it is a GRANT with a taper; else it lapses (R79,
R80, R81). -/
def expired (s : State) (i : WinIdx) : State :=
  if (s.win i).phase = .arming then inPhase i .held (s.win i).hold s
  else if (s.win i).phase = .held ∧ (s.win i).kind = .grant ∧ (s.win i).taper ≠ 0 then
    inPhase i .taper (s.win i).taper s
  else lapsed i s

/-- A lease tick falls due in the next LCLK period: the run flag is SET and the prescaler count would reach the
period divisor (R69). -/
abbrev tickNow (s : State) : Prop := s.clock.run = true ∧ s.clock.periodDivisor ≤ s.clock.prescaler + 1

/-- A lease tick: lease time advances, a new tick period begins, and the windows at the front of the expiry list
whose deadlines it reaches expire in list order (R69, R78). -/
def ticked (s : State) : State :=
  let u := { s with clock := { s.clock with
    prescaler := 0, periodDivisor := s.clock.divisor, time := s.clock.time + 1 } }
  ((u.clock.expiry.takeWhile fun e => deadlineReached u.clock.time e.deadline).map (·.window)).foldl expired u

/-- The counts of an LCLK period: every deadline count falls, and the prescaler count rises where the run flag is
SET and the period completes no tick period (R6, R69). -/
def periodCounted (s : State) : State :=
  let t := deadlinesLowered s
  { t with clock := { t.clock with
    prescaler := if s.clock.run = true ∧ ¬ tickNow s then s.clock.prescaler + 1 else s.clock.prescaler } }

/-- A data deadline within an LCLK period, of the entry at a place by then, where that entry waits for data and its
count has come to 0 (R6, log 4). -/
def deadlineTaken (p : Port) (place : Nat) (s : State) : State :=
  match (s.port p).pending.drop place with
  | [] => s
  | e :: younger =>
    if e.progress = .waitingData ∧ e.deadlineCount = some 0 then
      timedOut p ⟨(s.port p).pending.take place, e, younger⟩ s
    else s

/-- The parts of an LCLK period in an order, a tick that is due once (log 4). -/
def inOrder : List LclkPart → Bool → State → State
  | [], _, s => s
  | .tick :: parts, due, s => inOrder parts false (if due = true then ticked s else s)
  | .deadline p place :: parts, due, s => inOrder parts due (deadlineTaken p place s)
  | .grant :: parts, due, s => inOrder parts due (grantDecision s)

/-- Every part an LCLK period can hold: the tick, and of each port two entries, of which the second can become the
first (log 4). -/
def everyPart : List LclkPart :=
  .tick :: [Port.a, .b, .c, .d].flatMap fun p => [.deadline p 0, .deadline p 0, .deadline p 1]

/-- In ARMING, HELD, TAPER or LAPSED (R30, R35). -/
abbrev changeable (w : Window) : Prop :=
  w.phase = .arming ∨ w.phase = .held ∨ w.phase = .taper ∨ w.phase = .lapsed

/-- With the record's port set, the GRANT `i` shares a port and a port word with another occupied GRANT (R24,
R30). -/
def amendCollides (s : State) (i : WinIdx) : Prop :=
  (s.win i).kind = .grant ∧ ∃ (j : WinIdx) (p : Port), j ≠ i ∧ holdsGrant (s.win j) p ∧
    hasPort (record s).ports p = true ∧
    (s.win j).portBase.toNat < (s.win i).portBase.toNat + 2 ^ (s.win i).sizeClass.toNat ∧
    (s.win i).portBase.toNat < (s.win j).portBase.toNat + 2 ^ (s.win j).sizeClass.toNat

/-- Live frames that name window `i` on the stacks of the ports the record's port set leaves out (R31). -/
def removedFrames (s : State) (i : WinIdx) : Nat :=
  (allPorts.map fun p => if hasPort (s.win i).ports p = true ∧ hasPort (record s).ports p = false then
    (s.scopes.get p).countP (countsFor i) else 0).sum

/-- Window `i` created from its operands, in its first phase (R26, R28, R29). -/
def created (i : WinIdx) (n : NewWindow) (s : State) : State :=
  let w : Window := {
    phase := .free, kind := n.kind, ports := n.ports, portBase := n.portBase, sizeClass := n.sizeClass,
    target := if n.kind = .grant then some (n.target.setWidth 20) else none,
    rights := n.rights, writeLanes := n.writeLanes,
    lanePolicy := if n.kind = .grant then n.lanePolicy else .strict,
    scrub := n.scrub, autoRetire := n.autoRetire, onset := n.onset, hold := n.hold, taper := n.taper,
    scale := n.scale, renewBudget := n.renewBudget, deadline := none, inFlight := 0, scopeRefs := 0,
    origin := n.origin }
  if n.onset = 0 then inPhase i .held n.hold (s.setWin i w) else inPhase i .arming n.onset (s.setWin i w)

/-- The head `r` answered: the rest of the queue stays, and the reply takes its ticket (R98, R99, R101). -/
def headAnswered (r : Request) (rest : List Request) (outcome : ReplyOutcome) (s : State) : State :=
  { s with
    requests := rest
    replies := s.replies.set r.port (s.replies.get r.port ++ [⟨r.tag, outcome⟩]) }

/-! ## Resets -/

/-- The window an entry is bound to, until it is settled (R37). -/
def boundWindow (e : Entry) : Option WinIdx :=
  if e.progress = .settled then none
  else match e.decision with
    | .admitted _ _ _ bound => bound
    | .allAborted | .refused _ | .routed | .served _ => none

/-- The bindings of a list of entries end, in list order (R37). -/
def unboundAll (es : List Entry) (s : State) : State := es.foldl (fun u e => unboundFrom (boundWindow e) u) s

/-- The entry is discarded by a port reset while bound to window `i` (R15). -/
def discardedBoundTo (i : WinIdx) (e : Entry) : Bool :=
  e.progress != .executing && e.progress != .settled &&
    match e.decision with
    | .admitted _ _ _ bound => bound == some i
    | .allAborted | .refused _ | .routed | .served _ => false

/-- The assertion of port `p`'s reset line: the port, its requests, replies, tickets and stack; every discarded
entry ends its binding, in the order given (R15, R46, R106, R118, log 5). -/
def lineAsserted (p : Port) (order : DiscardOrder) (s : State) : State :=
  let u : Piu := s.port p
  let gone := u.pending.filter fun e => e.progress != .executing
  let kept := (u.pending.filter fun e => e.progress == .executing).map fun e => { e with dropped := true }
  let asserted : State := s.setPort p { u with
    state := .inReset, line := true, pending := kept, discard := 0, lastAdmitted := none, flags := 0 }
  let t := unboundAll (match order with | .oldestFirst => gone | .youngestFirst => gone.reverse) asserted
  { t with
    requests := s.requests.filter fun r => r.port != p
    replies := s.replies.set p []
    tickets := s.tickets.set p 4
    scopes := s.scopes.set p []
    windows := Vector.ofFn fun i => { t.win i with
      scopeRefs := (t.win i).scopeRefs - (s.scopes.get p).countP (countsFor i) } }

/-- The response of a completed burst: a READ's words, or OK or TRIMMED of a WRITE (R7, R9, R129, log 7). -/
def completionAnswer (e : Entry) (b : Burst) (s : State) : Response :=
  if e.access.kind = .read then ⟨.ok, none, b.addrs.map s.sramWord⟩
  else match e.decision with
    | .admitted _ _ true _ => ⟨.trimmed, none, []⟩
    | .admitted _ _ false _ | .allAborted | .refused _ | .routed | .served _ => ⟨.ok, none, []⟩

/-- The responses that leave port `p` at the end of a soft reset, with burst `b` under way till then: of the port
whose burst completes its normal response, none where it is dropped, and those of the settled entries right behind
it (log 10); then ABORTED for every other entry, oldest first (R17, R129). -/
def lastResponses (p : Port) (b : Burst) (s : State) : List Response :=
  if b.source = .port p then
    match (s.port p).pending with
    | [] => []
    | e :: es => (if e.dropped = true then [] else [completionAnswer e b s]) ++
        (es.takeWhile isSettled).filterMap (·.response) ++ (es.dropWhile isSettled).map fun x => aborted x.access
  else (s.port p).pending.map fun x => aborted x.access

/-- From `s` to `t` every block took its reset value; each port's state follows its line (R14, R176). Apart from
that stand the responses sent, the Management Port, the SRAM, the number of power-ons and PORST. -/
def blocksReset (s t : State) : Prop :=
  (∀ p : Port, t.port p = { Piu.powerOn with
      state := if (s.port p).line = true then .inReset else .active
      line := (s.port p).line
      sent := (t.port p).sent }) ∧
    t = { State.reset with
      piu := t.piu, mgmt := t.mgmt, sram := t.sram, powerOns := t.powerOns, porst := t.porst,
      pending := s.pending }

/-- The reset values of a power-on reset; select keeps its level and no byte of the SRAM has been written. -/
def resetApartFromPins (s t : State) : Prop :=
  blocksReset s t ∧ (∀ p : Port, (t.port p).sent = (s.port p).sent) ∧
    t.mgmt = { Mgmt.powerOn with select := s.mgmt.select } ∧ t.sram = []

/-- The reset values of a soft reset (R176). -/
def softResetValues (s t : State) : Prop :=
  blocksReset s t ∧ t.porst = s.porst ∧ t.powerOns = s.powerOns

/-! ## Layouts of the words the part drives (spec/11) -/

/-- A field of `n` bits that holds a value's place in a list of codes from 0. -/
def codeIn {α : Type} [BEq α] (n : Nat) (codes : List α) (x : α) : BitVec n := BitVec.ofNat n (codes.idxOf x)

/-- A port's code: A 0 to D 3. -/
def portBits (p : Port) : BitVec 2 := codeIn 2 [Port.a, .b, .c, .d] p

/-- The engine state's code: 0 IDLE, 1 RUNNING, 2 PAUSED. -/
def engineBits (e : EngineState) : BitVec 2 := codeIn 2 [EngineState.idle, .running, .paused] e

/-- A window index, 0 where absent, behind its presence bit. -/
def indexBits (i : Option WinIdx) : BitVec 6 :=
  match i with
  | some x => (BitVec.ofBool true ++ BitVec.ofNat 5 x.val : BitVec 6)
  | none => 0

/-- A reason's code, 1 to 18 (section 11.1.1). -/
def reasonBits (r : Reason) : BitVec 5 :=
  1 + codeIn 5 [Reason.readDenied, .writeDenied, .laneDenied, .scopeBound, .scopeLost, .scopeWiden, .scopeBad,
    .stackLimit, .stackEmpty, .noWindow, .notYet, .lapsed, .retiring, .controlBad, .noTicket, .noSuchTag,
    .dataTimeout, .portStopped] r

/-- The lane policy's bit: 0 STRICT, 1 TRIM. -/
def policyBit (x : LanePolicy) : BitVec 1 := codeIn 1 [LanePolicy.strict, .trim] x

/-- The port status word and the PORT register: state, ANY, sticky flags, arm, scope depth, tickets free, replies
unread (R13, section 11.4.2). -/
def portLayout (s : State) (p : Port) : BitVec 32 :=
  codeIn 2 [PortState.active, .stopped, .inReset] (s.port p).state ++
    BitVec.ofBool ((s.port p).flags.extractLsb' 0 4 != 0) ++ (s.port p).flags ++ BitVec.ofBool (s.port p).arm ++
    BitVec.ofNat 4 (s.scopes.get p).length ++ BitVec.ofNat 3 (s.tickets.get p) ++
    BitVec.ofNat 3 (s.replies.get p).length ++ 0#13

/-- The reply word: outcome, tag, window index, refusal code (R104, section 11.2.2). -/
def replyLayout (r : Reply) : BitVec 32 :=
  match r.outcome with
  | .granted i => 1#3 ++ r.tag ++ BitVec.ofNat 5 i.val ++ 0#4 ++ 0#16
  | .refused code => 2#3 ++ r.tag ++ 0#5 ++ code ++ 0#16
  | .full => 3#3 ++ r.tag ++ 0#5 ++ 0#4 ++ 0#16
  | .duplicate => 4#3 ++ r.tag ++ 0#5 ++ 0#4 ++ 0#16

/-- STATUS: malformed flag, pending flags, engine state, queue length, overflow count (section 11.4.1). -/
def statusLayout (s : State) : BitVec 32 :=
  BitVec.ofBool s.mgmt.malformed ++ s.attn.pending ++ engineBits s.scrub.state ++
    BitVec.ofNat 5 s.requests.length ++ BitVec.ofNat 8 s.faults.overflow ++ 0#11

/-- CLOCK: run flag, scrub share, divisor (65,536 as 0), lease time (section 11.4.2). -/
def clockLayout (c : LeaseClock) : BitVec 64 :=
  BitVec.ofBool c.run ++ c.share ++ 0#11 ++ BitVec.ofNat 16 c.divisor ++ c.time

/-- SCRUB: fill pattern, engine state, progress record, scrub list length (section 11.4.2). -/
def scrubLayout (e : ScrubEngine) : BitVec 128 :=
  e.pattern ++ engineBits e.state ++ indexBits (e.progress.map (·.window)) ++ 0#18 ++
    BitVec.ofNat 6 e.list.length ++ 0#12 ++ BitVec.ofNat 20 ((e.progress.map (·.nextOffset)).getD 0) ++ 0#11 ++
    BitVec.ofNat 21 ((e.progress.map (·.wordsRemaining)).getD 0)

/-- REQUEST_HEAD (section 11.4.4): the empty indication, or length, kind, port, tag, window index, the NEW fields
as the request's data words hold them (section 11.2.1), and the arrival time. -/
def headLayout (queue : List Request) : BitVec 128 :=
  match queue with
  | [] => 1#1 ++ 0#127
  | r :: _ =>
    match r.body with
    | .new f =>
      0#1 ++ BitVec.ofNat 5 queue.length ++ 0#1 ++ portBits r.port ++ r.tag ++ 0#19 ++
        r.tag ++ f.rights ++ f.writeLanes ++ policyBit f.lanePolicy ++ BitVec.ofBool f.scrubWanted ++ f.hold ++
        f.taper ++ 0#12 ++ f.sizeClass ++ 0#5 ++ f.portBase ++ r.arrival
    | .extend i =>
      0#1 ++ BitVec.ofNat 5 queue.length ++ 1#1 ++ portBits r.port ++ r.tag ++ BitVec.ofNat 5 i.val ++ 0#14 ++
        0#64 ++ r.arrival

/-- The result record: code, window index, lease time (section 11.4.7). -/
def resultLayout (r : Result) : BitVec 128 :=
  codeIn 4 [ResultCode.done, .staleHead, .queueEmpty, .noFreeWindow, .badGeometry, .targetRange, .overlap,
      .targetBusy, .badEnvelope, .wrongState, .badIndex, .badAction] r.code ++
    indexBits r.window ++ 0#22 ++ r.time ++ 0#64

/-- A fault slot (section 11.4.5). -/
def faultLayout (slot : Option FaultRecord) : BitVec 128 :=
  match slot with
  | none => 0
  | some r =>
    1#1 ++ reasonBits r.reason ++ portBits r.port ++ codeIn 2 [FaultKind.read, .write, .control] r.kind ++
      indexBits r.window ++ BitVec.ofNat 4 r.depth ++ BitVec.ofNat 4 r.repeats ++ BitVec.ofBool r.preceding.isSome ++
      0#7 ++ 0#10 ++ r.address ++ 0#10 ++ r.preceding.getD 0 ++ r.time

/-- A window record (section 11.4.6). -/
def windowLayout (w : Window) : BitVec 160 :=
  codeIn 3 [Phase.free, .arming, .held, .taper, .lapsed, .draining, .scrubWait, .scrubbing] w.phase ++
    codeIn 1 [WinKind.grant, .fence] w.kind ++ w.ports ++ w.sizeClass ++ w.rights ++ w.writeLanes ++
    policyBit w.lanePolicy ++ BitVec.ofBool w.scrub ++ BitVec.ofBool w.autoRetire ++ w.onset ++ w.hold ++ 0#2 ++
    w.taper ++ w.scale ++ w.renewBudget ++ w.portBase ++
    BitVec.ofBool w.target.isSome ++ BitVec.ofBool w.deadline.isSome ++ BitVec.ofBool w.origin.isSome ++
    portBits ((w.origin.map (·.1)).getD .a) ++ (w.origin.map (·.2)).getD 0 ++ 0#3 ++ w.target.getD 0 ++
    BitVec.ofNat 4 w.inFlight ++ BitVec.ofNat 6 w.scopeRefs ++ 0#22 ++ w.deadline.getD 0

/-- The action record of 128 bits shifted in (section 11.4.7): bit `b` of word `k` is bit 32 × (3 − k) + b. -/
def recordLayout (x : Payload) : ActionRecord where
  code := x.extractLsb' 123 5
  index := x.extractLsb' 117 6
  port := ([Port.a, .b, .c, .d][(x.extractLsb' 115 2).toNat]?).getD .a
  tag := x.extractLsb' 111 4
  refusal := x.extractLsb' 107 4
  budget := x.extractLsb' 103 4
  mask := x.extractLsb' 98 5
  kind := if x.getLsbD 95 = true then .fence else .grant
  ports := x.extractLsb' 91 4
  portBase := x.extractLsb' 69 22
  sizeClass := x.extractLsb' 64 5
  target := x.extractLsb' 42 22
  rights := x.extractLsb' 40 2
  writeLanes := x.extractLsb' 36 4
  lanePolicy := if x.getLsbD 35 = true then .trim else .strict
  scrub := x.getLsbD 34
  autoRetire := x.getLsbD 33
  onset := x.extractLsb' 28 4
  hold := x.extractLsb' 24 4
  taper := x.extractLsb' 20 4
  scale := x.extractLsb' 18 2

/-! ## Invariants of the tables -/

/-- A range of `m` words from `a` and one of `n` words from `b` share no word. -/
abbrev apart (a m b n : Nat) : Prop := a + m ≤ b ∨ b + n ≤ a

/-- Two occupied GRANTs that share a port share no port word (R24). -/
def grantsApart (s : State) : Prop :=
  ∀ (i j : WinIdx) (p : Port), i ≠ j → holdsGrant (s.win i) p → holdsGrant (s.win j) p →
    apart (s.win i).portBase.toNat (2 ^ (s.win i).sizeClass.toNat) (s.win j).portBase.toNat
      (2 ^ (s.win j).sizeClass.toNat)

/-- A window with the scrub flag shares no SRAM word with another occupied window (R25). -/
def scrubsApart (s : State) : Prop :=
  ∀ (i j : WinIdx) (a b : SramAddr), i ≠ j → (s.win i).phase ≠ .free → (s.win j).phase ≠ .free →
    (s.win i).scrub = true → (s.win i).target = some a → (s.win j).target = some b →
    apart a.toNat (2 ^ (s.win i).sizeClass.toNat) b.toNat (2 ^ (s.win j).sizeClass.toNat)

/-- A window as its creation forms it: ports, geometry, envelope, target (R19, R23, R26). -/
structure Formed (w : Window) : Prop where
  ports : w.ports ≠ 0
  sizeClass : 4 ≤ w.sizeClass.toNat ∧ w.sizeClass.toNat ≤ 20
  portBase : w.portBase.toNat % 2 ^ w.sizeClass.toNat = 0
  target : w.kind = .grant ↔ w.target.isSome = true
  inSram : ∀ a, w.target = some a →
    a.toNat % 2 ^ w.sizeClass.toNat = 0 ∧ a.toNat + 2 ^ w.sizeClass.toNat ≤ 1048576
  hold : w.hold ≠ 0
  fence : w.kind = .fence → w.taper = 0 ∧ w.scrub = false ∧ w.lanePolicy = .strict

/-- A FREE window has the cleared values, an occupied one is formed, and none stands in DRAINING at a count of 0
(R20, R23, R38). -/
def windowsFormed (s : State) : Prop :=
  ∀ i, ((s.win i).phase = .free → s.win i = Window.cleared) ∧ ((s.win i).phase ≠ .free → Formed (s.win i)) ∧
    ((s.win i).phase = .draining → (s.win i).inFlight ≠ 0)

/-- A window's in-flight count is the number of pending entries bound to it; it is 0 in SCRUB_WAIT and SCRUBBING
(R37). -/
def bindingsCounted (s : State) : Prop :=
  ∀ i, (s.win i).inFlight = (allPorts.map fun p => (s.port p).pending.countP fun e => boundWindow e == some i).sum ∧
    ((s.win i).phase = .scrubWait ∨ (s.win i).phase = .scrubbing → (s.win i).inFlight = 0)

/-- The entry under way is the oldest of the port whose burst is under way, with that burst's binding (R121,
R124). -/
def burstMatches (s : State) : Prop :=
  (∀ b p, s.seq.burst = some b → b.source = .port p →
    ∃ e es, (s.port p).pending = e :: es ∧ e.progress = .executing ∧ b.bound = boundWindow e) ∧
  ∀ (p : Port) (older younger : List Entry) (e : Entry), (s.port p).pending = older ++ e :: younger →
    e.progress = .executing →
    older = [] ∧ ∃ b, s.seq.burst = some b ∧ b.source = .port p

/-- A live frame names a GRANT in force of its port with the frame's range, and a window's scope references are
the number of live frames naming it (R51, R109). -/
def scopesCounted (s : State) : Prop :=
  (∀ i, (s.win i).scopeRefs = (allPorts.map fun p => (s.scopes.get p).countP (countsFor i)).sum) ∧
  ∀ p, ∀ f ∈ s.scopes.get p, f.orphan = false →
    holdsGrant (s.win f.window) p ∧ ((s.win f.window).phase = .held ∨ (s.win f.window).phase = .taper) ∧
      f.portBase = (s.win f.window).portBase ∧ f.sizeClass = (s.win f.window).sizeClass

/-- The SCRUB_WAIT windows are those of the scrub list, each once, and the SCRUBBING window is that of the progress
record, whose counts add up to its size (R136). -/
def scrubMatches (s : State) : Prop :=
  (∀ i, (s.win i).phase = .scrubWait ↔ i ∈ s.scrub.list) ∧ s.scrub.list.Nodup ∧
  (∀ i, (s.win i).phase = .scrubbing ↔ s.scrub.progress.map (·.window) = some i) ∧
  ∀ g, s.scrub.progress = some g → g.nextOffset % 4 = 0 ∧ g.wordsRemaining % 4 = 0 ∧ 4 ≤ g.wordsRemaining ∧
    g.nextOffset + g.wordsRemaining = 2 ^ (s.win g.window).sizeClass.toNat

/-- A window's phase has a finite duration (R74, R75). -/
abbrev timedPhase (w : Window) : Prop :=
  (w.phase = .arming ∧ 1 ≤ w.onset.toNat ∧ w.onset.toNat ≤ 14) ∨
  (w.phase = .held ∧ 1 ≤ w.hold.toNat ∧ w.hold.toNat ≤ 14) ∨
  (w.phase = .taper ∧ 1 ≤ w.taper.toNat ∧ w.taper.toNat ≤ 14)

/-- The expiry list has one entry for each window whose phase has a finite duration, with the window's own
deadline, in the order of remaining time; no deadline is reached between ticks (R72, R73, R75). -/
def expiryMatches (s : State) : Prop :=
  (∀ i, (s.win i).deadline.isSome = true ↔ timedPhase (s.win i)) ∧
  (∀ i d, (s.win i).deadline = some d ↔ ⟨i, d⟩ ∈ s.clock.expiry) ∧
  (s.clock.expiry.map (·.window)).Nodup ∧
  s.clock.expiry.Pairwise (fun x y => remaining s.clock.time x.deadline ≤ remaining s.clock.time y.deadline) ∧
  ∀ e ∈ s.clock.expiry, 1 ≤ remaining s.clock.time e.deadline ∧ remaining s.clock.time e.deadline ≤ 2048000

/-- No two queued requests have one port and tag (R94). -/
def requestsApart (s : State) : Prop := s.requests.Pairwise fun x y => ¬ (x.port = y.port ∧ x.tag = y.tag)

/-- No two HELD slots share a coalescing key, and a record's counts stay in their ranges (R149, R150). -/
def faultsApart (s : State) : Prop :=
  (∀ (n m : Fin 8) (x y : FaultRecord), s.faults.slots[n] = some x → s.faults.slots[m] = some y → sameKey x y →
    n = m) ∧
  ∀ (n : Fin 8) (x : FaultRecord), s.faults.slots[n] = some x → x.depth ≤ 8 ∧ 1 ≤ x.repeats ∧ x.repeats ≤ 15

/-- The invariants of the lists, the ports and the tables together. -/
structure Invariants (s : State) : Prop where
  tickets : ticketsCounted s
  places : withinPlaces s
  lines : linesMatch s
  oldest : oldestUnsettled s
  engine : engineMatches s
  grants : grantsApart s
  scrubs : scrubsApart s
  formed : windowsFormed s
  bindings : bindingsCounted s
  burst : burstMatches s
  scopes : scopesCounted s
  scrub : scrubMatches s
  expiry : expiryMatches s
  requests : requestsApart s
  faults : faultsApart s

end Sys2Proof.Safety
end

