-- ==== Sys2Proof/Certificates/Slice0/Obligations.lean ====
section
/-! DEFINITION. What is to be proved about the model. -/

open Sys2Proof Sys2Proof.Machine Sys2Proof.Safety

/-! ## The queue and the step -/

/-- A step runs the command at the front of the queue on the state with the queue's rest. -/
def Obligations.StepRunsFrontCommand : Prop :=
  ∀ (c : Instr) (rest : List Instr) (s : State),
    step { s with pending := c :: rest } = exec c { s with pending := rest }

/-- Every command answers a next state (DEDUCED, log 21) and leaves the queue alone (the model's own, log 16); on an
empty queue a step changes nothing (log 2, a DESIGN CHOICE). -/
def Obligations.EveryCommandAnswers : Prop :=
  (∀ (c : Instr) (s : State), ∃ t, exec c s = .next t ∧ t.pending = s.pending) ∧
    ∀ s : State, s.pending = [] → step s = .next s

/-! ## Resets -/

/-- What the part holds right after power-on reset with its lines released. The released lines are the model's choice
(log 15), the closed frame's fields another (log 12). -/
def Obligations.ResetValues : Prop :=
  (∀ p : Port, (State.reset.port p).state = .active ∧ (State.reset.port p).pending = [] ∧
      (State.reset.port p).discard = 0 ∧ (State.reset.port p).lastAdmitted = none ∧
      (State.reset.port p).flags = 0 ∧ (State.reset.port p).arm = false ∧
      State.reset.tickets.get p = 4 ∧ State.reset.replies.get p = [] ∧ State.reset.scopes.get p = []) ∧
    (∀ i : WinIdx, State.reset.win i =
      { phase := .free, kind := .grant, ports := 0, portBase := 0, sizeClass := 4, target := none, rights := 0,
        writeLanes := 0, lanePolicy := .strict, scrub := false, autoRetire := false, onset := 0, hold := 0,
        taper := 0, scale := 0, renewBudget := 0, deadline := none, inFlight := 0, scopeRefs := 0,
        origin := none }) ∧
    State.reset.map.enabled = false ∧
    (∀ (g : Fin 16) (p : Port), State.reset.map.entries[g].get p = .none) ∧
    State.reset.clock = ⟨25000, 25000, 0, false, 0, [], 4⟩ ∧ State.reset.requests = [] ∧
    State.reset.seq = ⟨.d, 0, none⟩ ∧ State.reset.scrub = ⟨.idle, none, [], 0⟩ ∧
    (∀ n : Fin 8, State.reset.faults.slots[n] = none) ∧ State.reset.faults.overflow = 0 ∧
    State.reset.attn = ⟨0, 0⟩ ∧ State.reset.attnOutput = false ∧
    State.reset.mgmt.frame = .closed ∧ State.reset.mgmt.malformed = false ∧
    State.reset.mgmt.lastResult = ⟨.done, none, 0⟩

/-- PORST_ASSERT and POWER_ON_RESET: the part takes its reset values, each port's state by its line. Select, the
lines, the responses sent (log 8) and the queue stay; the SRAM content is unspecified anew at each assertion (log 6),
and the closed frame's bit count, selector and contents are 0 (log 12): each a DESIGN CHOICE. -/
def Obligations.PowerOnResetGivesResetValues : Prop :=
  ∀ s : State,
    (s.porst = false → ∃ t, exec .porstAssert s = .next t ∧ t.porst = true ∧ t.powerOns = s.powerOns + 1 ∧
      resetApartFromPins s t) ∧
    (s.porst = true → ∃ t, exec .powerOnReset s = .next t ∧ t.porst = false ∧ t.powerOns = s.powerOns ∧
      resetApartFromPins s t)

/-- PORT_RESET_RELEASE: the port is ACTIVE; nothing else changes. PORT_RESET_ASSERT: the port, its requests, replies,
tickets and stack; the discarded entries' bindings end, which may end drains; a grant decision that is due is taken
(DEDUCED, log 22). The orders are operands (log 5). A data deadline, or the last beat of a routed control write, that
meets the assertion and is taken first has its effects, and its response does not leave (log 28). A line is followed
during PORST too (log 24). Responses sent stand in a list of the model's own (log 8). It is so during a soft reset too
(DEDUCED, log 29). -/
def Obligations.PortResets : Prop :=
  (∀ (p : Port) (s : State), (s.port p).line = true →
    exec (.portResetRelease p) s = .next (s.setPort p { s.port p with line := false, state := .active })) ∧
  (∀ (p : Port) (order : DiscardOrder) (s : State), engineMatches s → (s.port p).line = false →
    exec (.portResetAssert p ⟨[], order⟩) s = .next (grantDecision (lineAsserted p order s))) ∧
  (∀ (p : Port) (order : DiscardOrder) (s t : State) (i : WinIdx),
    engineMatches s → (s.port p).line = false → (s.win i).phase ≠ .draining →
    exec (.portResetAssert p ⟨[], order⟩) s = .next t →
    t.win i = { s.win i with
      inFlight := (s.win i).inFlight - (s.port p).pending.countP (fun e => discardedBoundTo i e)
      scopeRefs := (s.win i).scopeRefs - (s.scopes.get p).countP (countsFor i) }) ∧
  (∀ (p : Port) (order : DiscardOrder) (s u : State) (q : Slot), engineMatches s → (s.port p).line = false →
    running s → stands s p q → q.entry.progress = .waitingData → q.entry.deadlineCount = some 1 →
    u = s.setPort p { s.port p with pending := q.older ++ q.younger } →
    (∀ addrs lanes trimmed bound, q.entry.decision = .admitted addrs lanes trimmed bound →
      exec (.portResetAssert p ⟨[.deadline q.older.length], order⟩) s = .next (grantDecision (lineAsserted p order
        (faultEvent p .dataTimeout .write q.entry.access.address bound (unboundFrom bound u))))) ∧
    (q.entry.decision = .allAborted →
      exec (.portResetAssert p ⟨[.deadline q.older.length], order⟩) s = .next (grantDecision (lineAsserted p order
        (faultEvent p .dataTimeout .write q.entry.access.address none u)))) ∧
    (q.entry.decision = .routed →
      exec (.portResetAssert p ⟨[.deadline q.older.length], order⟩) s = .next (grantDecision (lineAsserted p order
        (faultEvent p .dataTimeout .control q.entry.access.address none u)))) ∧
    ∀ reason, q.entry.decision = .refused reason →
      exec (.portResetAssert p ⟨[.deadline q.older.length], order⟩) s =
        .next (grantDecision (lineAsserted p order u))) ∧
  ∀ (p : Port) (order : DiscardOrder) (s t : State) (n : Nat) (q : Slot) (kept : List Word) (w : Word),
    engineMatches s → (s.port p).line = false → lastBeatDue s p n q kept → s.seq.burst.isSome = true →
    exec (.writeDataBeat p w) s = .next t →
    exec (.portResetAssert p ⟨[.lastBeat w], order⟩) s = .next (lineAsserted p order
      (t.setPort p { t.port p with sent := (s.port p).sent }))

/-- SOFT_RESET with the SRAM idle: every entry is answered ABORTED and the soft reset ends at once. Under a port burst
it begins with the result DONE, and nothing else changes; under a scrub burst the entries are answered at once and
their bindings end, port by port from A (log 9), which may end drains, and nothing else changes. In a soft reset in
progress it leaves the result DONE alone. The closed frame's fields are 0 by the model's choice (log 12). Responses
sent stand in a list of the model's own (log 8). -/
def Obligations.SoftResetBegins : Prop :=
  (∀ s : State, actionStands s 15 → s.softReset = false → s.seq.burst = none →
    ∃ t, exec .softReset s = .next t ∧ softResetValues s t ∧ t.mgmt = { released s.mgmt false with
        lastResult := ⟨.done, none, 0⟩ } ∧ t.sram = s.sram ∧
      ∀ p, (t.port p).sent = (s.port p).sent ++ (s.port p).pending.map fun e => aborted e.access) ∧
  (∀ (s : State) (b : Burst) (p : Port), actionStands s 15 → s.softReset = false → s.seq.burst = some b →
    b.source = .port p →
    exec .softReset s = .next { withResult .done none s.clock.time (frameDone s) with softReset := true }) ∧
  (∀ (s u : State) (b : Burst), actionStands s 15 → s.softReset = false → s.seq.burst = some b → b.source = .scrub →
    engineMatches s → u = unboundAll (allPorts.flatMap fun p => (s.port p).pending) s →
    ∃ t, exec .softReset s = .next t ∧
      (∀ p, t.port p = { s.port p with
        pending := []
        sent := (s.port p).sent ++ (s.port p).pending.map fun e => aborted e.access }) ∧
      t = { s with
        piu := t.piu, windows := u.windows, scrub := u.scrub, softReset := true
        mgmt := { released s.mgmt false with lastResult := ⟨.done, none, s.clock.time⟩ } }) ∧
  ∀ s : State, actionStands s 15 → s.softReset = true →
    exec .softReset s = .next (withResult .done none s.clock.time (frameDone s))

/-- SOFT_RESET_END: the completion of the burst under way ends the soft reset; the SRAM keeps what the burst wrote,
the open frame goes on, and every block has its reset values. The entry of a port burst has its normal response, the
settled ones right behind it have their own (DEDUCED, log 10), and every other entry is ABORTED. The row's extent (log
17), the moment of the SRAM's change (log 7) and the list of responses sent (log 8) are the model's choice. -/
def Obligations.SoftResetEndsAtTheCompletion : Prop :=
  ∀ (s : State) (b : Burst), s.softReset = true → s.seq.burst = some b →
    ∃ t, exec .softResetEnd s = .next t ∧ softResetValues s t ∧
      t.mgmt = { s.mgmt with malformed := false, lastResult := ⟨.done, none, 0⟩ } ∧
      t.sram = (if b.kind = .write then writeBeats b.addrs b.lanes b.data s.sram else s.sram) ∧
      (∀ p, (t.port p).sent = (s.port p).sent ++ lastResponses p b s) ∧
      exec (match b.source with | .port _ => .portBurstComplete | .scrub => .scrubBurstComplete) s = .next t

/-! ## Acceptance -/

/-- ACCEPT_DATA_ACCESS, ACCEPT_CONTROL_ACCESS, REPLY_READ: where R3 does not let the port accept, nothing changes.
Offers stay outside the part by the model's choice (log 3). -/
def Obligations.OfferNotAcceptedChangesNothing : Prop :=
  ∀ (p : Port) (acc : Access) (s : State), ¬ accepts s p acc.kind →
    exec (.acceptDataAccess p acc) s = .next s ∧ exec (.acceptControlAccess p acc) s = .next s ∧
      (acc.kind = .read → exec (.replyRead p) s = .next s)

/-- ACCEPT_DATA_ACCESS of an admitted access that makes no candidate, a WRITE, a READ behind an older entry, or any
access while the SRAM is busy: the entry with its decision, the binding, the last admitted address, TRIMMED where a
lane was dropped. A WRITE whose every beat is aborted sets TRIMMED and binds nothing. -/
def Obligations.AdmittedAccessIsBound : Prop :=
  (∀ (p : Port) (acc : Access) (s : State) (addrs : List SramAddr) (lanes : List LaneSet) (trimmed : Bool)
    (bound : Option WinIdx),
    (Instr.acceptDataAccess p acc).wellFormed = true → accepts s p acc.kind → (s.port p).state = .active →
    noGrantDue s → (acc.kind = .write ∨ (s.port p).pending ≠ [] ∨ s.seq.burst.isSome = true) →
    oldestUnsettled s → admission p acc s = .admitted addrs lanes trimmed bound →
    ∃ t, exec (.acceptDataAccess p acc) s = .next t ∧
      t.port p = { s.port p with
        pending := (s.port p).pending ++ [entryAtAcceptance acc (.admitted addrs lanes trimmed bound)]
        lastAdmitted := some acc.address
        flags := if trimmed = true then (s.port p).flags ||| 16 else (s.port p).flags } ∧
      (∀ q, q ≠ p → t.port q = s.port q) ∧
      (∀ i, t.win i = if bound = some i then { s.win i with inFlight := (s.win i).inFlight + 1 } else s.win i) ∧
      t = { s with piu := t.piu, windows := t.windows }) ∧
  ∀ (p : Port) (acc : Access) (s : State),
    (Instr.acceptDataAccess p acc).wellFormed = true → accepts s p acc.kind → (s.port p).state = .active →
    oldestUnsettled s → noGrantDue s → acc.kind = .write → admission p acc s = .allAborted →
    exec (.acceptDataAccess p acc) s = .next (s.setPort p { s.port p with
      pending := (s.port p).pending ++ [entryAtAcceptance acc .allAborted]
      flags := (s.port p).flags ||| 16 })

/-- ACCEPT_DATA_ACCESS of an admitted READ into an empty pending list, with an idle SRAM and no other candidate: it is
granted in the same event. That the grant decision is taken within the event is DEDUCED (log 22). -/
def Obligations.AdmittedReadIsGrantedAtOnce : Prop :=
  ∀ (p : Port) (acc : Access) (s : State) (addrs : List SramAddr) (bound : Option WinIdx),
    (Instr.acceptDataAccess p acc).wellFormed = true → accepts s p acc.kind → (s.port p).state = .active →
    acc.kind = .read → (s.port p).pending = [] → s.seq.burst = none → noCandidate s →
    admission p acc s = .admitted addrs [] false bound →
    ∃ t, exec (.acceptDataAccess p acc) s = .next t ∧
      t.port p = { s.port p with
        pending := [{ entryAtAcceptance acc (.admitted addrs [] false bound) with progress := .executing }]
        lastAdmitted := some acc.address } ∧
      t.seq = ⟨p, min 15 (s.seq.shareCount + 1),
        some ⟨.port p, .read, acc.beats, addrs, [], [], bound, none⟩⟩ ∧
      (∀ q, q ≠ p → t.port q = s.port q) ∧
      (∀ i, t.win i = if bound = some i then { s.win i with inFlight := (s.win i).inFlight + 1 } else s.win i) ∧
      t = { s with piu := t.piu, windows := t.windows, seq := t.seq }

/-- ACCEPT_DATA_ACCESS refused, by the Admission Unit or with PORT_STOPPED, and ACCEPT_CONTROL_ACCESS refused, a WRITE
of a STOPPED port PORT_STOPPED and otherwise one that matches no row of the aperture table CONTROL_BAD: one fault
event, and the entry. Responses sent stand in a list of the model's own (log 8). -/
def Obligations.RefusedAtAcceptance : Prop :=
  (∀ (p : Port) (acc : Access) (s : State) (reason : Reason) (window : Option WinIdx),
    (Instr.acceptDataAccess p acc).wellFormed = true → accepts s p acc.kind → oldestUnsettled s → noGrantDue s →
    ((s.port p).state = .active ∧ admission p acc s = .refused reason window ∨
      (s.port p).state = .stopped ∧ reason = .portStopped ∧ window = none) →
    exec (.acceptDataAccess p acc) s = .next (refusedEntry p acc reason
      (faultEvent p reason (match acc.kind with | .read => .read | .write => .write) acc.address window s))) ∧
  ∀ (p : Port) (acc : Access) (s : State) (reason : Reason),
    (Instr.acceptControlAccess p acc).wellFormed = true → accepts s p acc.kind → oldestUnsettled s →
    (acc.kind = .write ∧ (s.port p).state = .stopped ∧ reason = .portStopped ∨
      ¬ (acc.kind = .write ∧ (s.port p).state = .stopped) ∧ wellShaped acc = false ∧ reason = .controlBad) →
    exec (.acceptControlAccess p acc) s = .next (refusedEntry p acc reason
      (faultEvent p reason .control acc.address none s))

/-- R10: the control accesses that match a row of the aperture table, and the words of the two-beat write. -/
def Obligations.WellShapedControlAccesses : Prop :=
  (∀ acc : Access, acc.address.toNat = 4194288 → acc.beats = 2 → beatAddressesOf acc = [4194288, 4194289]) ∧
  ∀ acc : Access, 4194288 ≤ acc.address.toNat →
    (wellShaped acc = true ↔
      (acc.kind = .write ∧ acc.address.toNat = 4194288 ∧ acc.beats = 2) ∨
      (acc.kind = .write ∧ 4194290 ≤ acc.address.toNat ∧ acc.address.toNat ≤ 4194295 ∧ acc.beats = 1) ∨
      (acc.kind = .read ∧ 4194296 ≤ acc.address.toNat ∧ acc.address.toNat ≤ 4194298 ∧ acc.beats = 1))

/-- ACCEPT_CONTROL_ACCESS of a well-shaped WRITE of an ACTIVE port: ROUTED, waiting for its data. Of a read of word 9
or 10, in ACTIVE and in STOPPED: the status word or the lease time. REPLY_READ, which is the acceptance of the
one-beat read of word 8: the oldest reply leaves the list and its ticket returns, or the word is 0. The answer leaves
at once where the port's list was empty and otherwise waits. The fields of the status word and of the reply word.
REPLY_READ and that acceptance are one event by the model's choice (log 1). Responses sent stand in a list of the
model's own (log 8). -/
def Obligations.ControlAccessIsRoutedOrServed : Prop :=
  (∀ (p : Port) (acc : Access) (s : State),
    (Instr.acceptControlAccess p acc).wellFormed = true → accepts s p acc.kind → (s.port p).state = .active →
    oldestUnsettled s → acc.kind = .write → wellShaped acc = true →
    exec (.acceptControlAccess p acc) s = .next (s.setPort p { s.port p with
      pending := (s.port p).pending ++ [entryAtAcceptance acc .routed] })) ∧
  (∀ (p : Port) (acc : Access) (s : State) (w : Word),
    (Instr.acceptControlAccess p acc).wellFormed = true → accepts s p acc.kind → oldestUnsettled s →
    acc.kind = .read → acc.beats = 1 →
    (acc.address.toNat = 4194297 ∧ w = portWord s p ∨ acc.address.toNat = 4194298 ∧ w = s.clock.time) →
    exec (.acceptControlAccess p acc) s = .next (servedRead p acc (.served w) ⟨.ok, none, [w]⟩ s)) ∧
  (∀ (p : Port) (acc : Access) (s : State), accepts s p .read → oldestUnsettled s →
    acc = { kind := .read, address := 4194296, beats := 1, lanes := [0] } →
    (∀ (r : Reply) (rest : List Reply), s.replies.get p = r :: rest →
      exec (.replyRead p) s = .next (servedRead p acc (.served (replyWord r)) ⟨.ok, none, [replyWord r]⟩
        { s with replies := s.replies.set p rest, tickets := s.tickets.set p (s.tickets.get p + 1) })) ∧
    (s.replies.get p = [] → exec (.replyRead p) s = .next (servedRead p acc (.served 0) ⟨.ok, none, [0]⟩ s)) ∧
    exec (.acceptControlAccess p acc) s = exec (.replyRead p) s) ∧
  (∀ (s : State) (p : Port), withinPlaces s → ticketsCounted s → portWord s p = portLayout s p) ∧
  ∀ r : Reply, replyWord r = replyLayout r

/-! ## Admission -/

/-- The grant match of an access outside scopes and the fixed map: NO_WINDOW without a matched GRANT, and the refusal
of the matched GRANT's phase. -/
def Obligations.AdmissionRefusesByPhase : Prop :=
  ∀ (p : Port) (acc : Access) (s : State), s.scopes.get p = [] → ¬ mapped s acc.address →
    ((∀ i, ¬ (holdsGrant (s.win i) p ∧ inRange (s.win i) acc.address)) →
      admission p acc s = .refused .noWindow none) ∧
    ∀ i, matchedBy s p acc.address i →
      ((s.win i).phase = .arming → admission p acc s = .refused .notYet (some i)) ∧
      ((s.win i).phase = .lapsed → admission p acc s = .refused .lapsed (some i)) ∧
      ((s.win i).phase = .draining ∨ (s.win i).phase = .scrubWait ∨ (s.win i).phase = .scrubbing →
        admission p acc s = .refused .retiring (some i))

/-- An access matched by a GRANT, with no scope and no acting FENCE: a READ in HELD or TAPER; a WRITE in HELD by the
WRITE right, then the lanes under STRICT or TRIM; a WRITE in TAPER is refused WRITE_DENIED. -/
def Obligations.AdmissionUnderAGrant : Prop :=
  (∀ (p : Port) (acc : Access) (s : State) (i : WinIdx) (target : SramAddr), s.scopes.get p = [] →
    ¬ mapped s acc.address → matchedBy s p acc.address i → (∀ j, ¬ fencedBy s p acc.address j) →
    ((s.win i).phase = .held ∨ (s.win i).phase = .taper) → (s.win i).target = some target → acc.kind = .read →
    admission p acc s =
      if hasRead (s.win i).rights = true then
        .admitted (relocated acc (s.win i).portBase.toNat target.toNat) [] false (some i)
      else .refused .readDenied (some i)) ∧
  ∀ (p : Port) (acc : Access) (s : State) (i : WinIdx) (target : SramAddr), s.scopes.get p = [] →
    ¬ mapped s acc.address → matchedBy s p acc.address i → (∀ j, ¬ fencedBy s p acc.address j) →
    (s.win i).target = some target → acc.kind = .write →
    ((s.win i).phase = .taper → admission p acc s = .refused .writeDenied (some i)) ∧
    ((s.win i).phase = .held → admission p acc s =
      if hasWrite (s.win i).rights = false then .refused .writeDenied (some i)
      else if ∀ l ∈ acc.lanes, l &&& ~~~(s.win i).writeLanes = 0 then
        .admitted (relocated acc (s.win i).portBase.toNat target.toNat) acc.lanes false (some i)
      else if (s.win i).lanePolicy = .strict then .refused .laneDenied (some i)
      else if ∀ l ∈ acc.lanes, l &&& (s.win i).writeLanes = 0 then .allAborted
      else .admitted (relocated acc (s.win i).portBase.toNat target.toNat)
        (acc.lanes.map fun l => l &&& (s.win i).writeLanes) true (some i))

/-- An access that a GRANT matches, with every acting FENCE's removals and the ceiling of a live top frame: by the
rights and lanes that are left, in HELD and in TAPER, under STRICT and under TRIM. -/
def Obligations.AFenceRemovesRightsAndLanes : Prop :=
  ∀ (p : Port) (acc : Access) (s : State) (i : WinIdx) (ceiling rights : Rights) (lanes : LaneSet),
    scopeAllows s p acc.address ceiling → ¬ mapped s acc.address → matchedBy s p acc.address i →
    fencesTake s p acc.address rights lanes →
    (((s.win i).phase = .held ∨ (s.win i).phase = .taper) → acc.kind = .read →
      admission p acc s =
        readVerdict ((s.win i).rights &&& ~~~rights &&& ceiling) (through (s.win i) acc) (some i)) ∧
    ((s.win i).phase = .taper → acc.kind = .write → admission p acc s = .refused .writeDenied (some i)) ∧
    ((s.win i).phase = .held → acc.kind = .write →
      admission p acc s = writeVerdict ((s.win i).rights &&& ~~~rights &&& ceiling)
        ((s.win i).writeLanes &&& ~~~lanes) (s.win i).lanePolicy acc (through (s.win i) acc) (some i))

/-- The fixed map decides the addresses of its region, naming no window; SRAM addresses are the port's. The acting
FENCEs take away from it, the ceiling of a live top frame limits it, and a lane they took refuses a WRITE. -/
def Obligations.AdmissionByTheFixedMap : Prop :=
  (∀ (p : Port) (acc : Access) (s : State) (g : Fin 16), s.scopes.get p = [] → mapped s acc.address →
    (∀ j, ¬ fencedBy s p acc.address j) → g.val = acc.address.toNat / 1024 →
    (acc.kind = .read → admission p acc s =
      if s.map.entries[g].get p = .none then .refused .readDenied none
      else .admitted (relocated acc 0 0) [] false none) ∧
    (acc.kind = .write → admission p acc s =
      if s.map.entries[g].get p = .readWrite then .admitted (relocated acc 0 0) acc.lanes false none
      else .refused .writeDenied none)) ∧
  ∀ (p : Port) (acc : Access) (s : State) (g : Fin 16) (ceiling rights entry : Rights) (lanes : LaneSet),
    scopeAllows s p acc.address ceiling → mapped s acc.address → fencesTake s p acc.address rights lanes →
    g.val = acc.address.toNat / 1024 →
    (entry = match s.map.entries[g].get p with | .none => 0 | .read => 1 | .readWrite => 3) →
    (acc.kind = .read →
      admission p acc s = readVerdict (entry &&& ~~~rights &&& ceiling) (relocated acc 0 0) none) ∧
    (acc.kind = .write → admission p acc s =
      writeVerdict (entry &&& ~~~rights &&& ceiling) (~~~lanes) .strict acc (relocated acc 0 0) none)

/-- The top scope frame: SCOPE_LOST when orphaned, SCOPE_BOUND outside its window. Inside it a ceiling without WRITE
or READ refuses the access its window would admit, and without a FENCE an access is decided by the window's rights
within the ceiling. -/
def Obligations.AdmissionUnderAScope : Prop :=
  ∀ (p : Port) (acc : Access) (s : State) (f : Frame) (fs : List Frame), s.scopes.get p = f :: fs →
    (f.orphan = true → admission p acc s = .refused .scopeLost (some f.window)) ∧
    (f.orphan = false → ¬ inRange (s.win f.window) acc.address →
      admission p acc s = .refused .scopeBound (some f.window)) ∧
    ∀ i, f.orphan = false → inRange (s.win f.window) acc.address → ¬ mapped s acc.address →
      matchedBy s p acc.address i → (s.win i).phase = .held →
      (acc.kind = .read → hasRead f.ceiling = false → admission p acc s = .refused .readDenied (some i)) ∧
      (acc.kind = .write → hasWrite f.ceiling = false → admission p acc s = .refused .writeDenied (some i)) ∧
      ((∀ j, ¬ fencedBy s p acc.address j) →
        (acc.kind = .read →
          admission p acc s = readVerdict ((s.win i).rights &&& f.ceiling) (through (s.win i) acc) (some i)) ∧
        (acc.kind = .write →
          admission p acc s = writeVerdict ((s.win i).rights &&& f.ceiling) (s.win i).writeLanes
            (s.win i).lanePolicy acc (through (s.win i) acc) (some i)))

/-! ## Write data -/

/-- WRITE_DATA_BEAT: a late beat lowers the discard count; a beat no write waits for is dropped; so is every beat
during PORST, a soft reset or the port's reset. A beat that is not the last goes to the oldest waiting write; its word
is kept for an ADMITTED or ROUTED write. -/
def Obligations.WriteDataBeatCases : Prop :=
  (∀ (p : Port) (w : Word) (s : State),
    (running s → (s.port p).state ≠ .inReset → noGrantDue s → 0 < (s.port p).discard →
      exec (.writeDataBeat p w) s =
        .next (s.setPort p { s.port p with discard := (s.port p).discard - 1 })) ∧
    (running s → (s.port p).state ≠ .inReset → noGrantDue s → (s.port p).discard = 0 →
      (∀ e ∈ (s.port p).pending, e.progress ≠ .waitingData) → exec (.writeDataBeat p w) s = .next s) ∧
    (¬ running s ∨ (s.port p).state = .inReset → exec (.writeDataBeat p w) s = .next s)) ∧
  ∀ (p : Port) (w : Word) (s : State) (older younger : List Entry) (e : Entry) (n : Nat),
    running s → (s.port p).state ≠ .inReset → noGrantDue s → (s.port p).discard = 0 →
    (s.port p).pending = older ++ e :: younger → (∀ x ∈ older, x.progress ≠ .waitingData) →
    e.progress = .waitingData → e.received = some n → n + 1 < e.access.beats →
    exec (.writeDataBeat p w) s = .next (s.setPort p { s.port p with
      pending := older ++ { e with
        received := some (n + 1)
        kept := match e.decision with
          | .admitted _ _ _ _ | .routed => e.kept ++ [w]
          | .allAborted | .refused _ | .served _ => e.kept } :: younger })

/-- WRITE_DATA_BEAT: the last beat of the oldest write that waits: an ADMITTED write is READY, an ALL_ABORTED one is
answered TRIMMED, a REFUSED one with its reason, at once or behind an older entry. The grant decision that is due is
taken within the event (DEDUCED, log 22). Responses sent stand in a list of the model's own (log 8). -/
def Obligations.TheLastBeatMovesTheWriteOn : Prop :=
  ∀ (p : Port) (w : Word) (s : State) (q received : Slot) (n : Nat),
    running s → (s.port p).state ≠ .inReset → (s.port p).discard = 0 → stands s p q → oldestWaits q →
    q.entry.received = some n → n + 1 = q.entry.access.beats → q.entry.access.kind = .write →
    received = { q with entry := { q.entry with received := some (n + 1) } } →
    (∀ addrs lanes trimmed bound, q.entry.decision = .admitted addrs lanes trimmed bound →
      exec (.writeDataBeat p w) s = .next (grantDecision (s.setPort p { s.port p with
        pending := q.older ++ { q.entry with
          received := some (n + 1), kept := q.entry.kept ++ [w], deadlineCount := none, progress := .ready } ::
            q.younger }))) ∧
    (q.entry.decision = .allAborted →
      exec (.writeDataBeat p w) s = .next (grantDecision (answeredAt p received ⟨.trimmed, none, []⟩ s))) ∧
    (∀ reason, q.entry.decision = .refused reason →
      exec (.writeDataBeat p w) s = .next (grantDecision (answeredAt p received ⟨.refused, some reason, []⟩ s)))

/-! ## Control writes -/

/-- NEW_REQUEST: NO_TICKET without a ticket; DUPLICATE for a tag in use; otherwise the request joins the queue. The
entry may stand behind another. That the row and the data beat are one event is the model's choice (log 1); that the
grant decision is taken within it is DEDUCED (log 22). Responses sent stand in a list of the model's own (log 8). -/
def Obligations.NewRequest : Prop :=
  ∀ (p : Port) (q : Slot) (w0 w1 : Word) (s : State) (tag : Tag), lastBeatDue s p 0 q [w0] →
    tag = w0.extractLsb' 28 4 →
    (s.tickets.get p = 0 → carriesOut (.newRequest p w1) p w1 s (refusedByOwner p q w1 .noTicket none s)) ∧
    (0 < s.tickets.get p → ¬ tagFree s p tag → carriesOut (.newRequest p w1) p w1 s
      (carriedOut p q w1 (repliedAtOnce p ⟨tag, .duplicate⟩ s))) ∧
    (0 < s.tickets.get p → tagFree s p tag → s.requests.length < 16 → carriesOut (.newRequest p w1) p w1 s
      (carriedOut p q w1 (joinsQueue { port := p, tag := tag, arrival := s.clock.time, body := .new {
        portBase := w1.extractLsb' 0 22, sizeClass := w1.extractLsb' 27 5, rights := w0.extractLsb' 26 2,
        writeLanes := w0.extractLsb' 22 4,
        lanePolicy := if w0.getLsbD 21 = true then .trim else .strict,
        hold := w0.extractLsb' 16 4, taper := w0.extractLsb' 12 4, scrubWanted := w0.getLsbD 20 } } s)))

/-- WITHDRAW: the port's queued request with the tag leaves the queue and its ticket returns, or NO_SUCH_TAG. The
entry may stand behind another. That the row and the data beat are one event is the model's choice (log 1); that the
grant decision is taken within it is DEDUCED (log 22). Responses sent stand in a list of the model's own (log 8). -/
def Obligations.Withdraw : Prop :=
  ∀ (p : Port) (q : Slot) (w : Word) (s : State), lastBeatDue s p 3 q [] →
    (∀ (before after : List Request) (r : Request), s.requests = before ++ r :: after →
      (∀ x ∈ before, ¬ (x.port = p ∧ x.tag = w.extractLsb' 0 4)) → r.port = p → r.tag = w.extractLsb' 0 4 →
      carriesOut (.withdraw p w) p w s (carriedOut p q w
        { s with requests := before ++ after, tickets := s.tickets.set p (s.tickets.get p + 1) })) ∧
    ((∀ x ∈ s.requests, ¬ (x.port = p ∧ x.tag = w.extractLsb' 0 4)) →
      carriesOut (.withdraw p w) p w s (refusedByOwner p q w .noSuchTag none s))

/-- PORT_RENEW: the refusals of R84, the renewal with a budget, and the EXTEND request of a spent budget. The entry
may stand behind another. That the row and the data beat are one event is the model's choice (log 1); that the grant
decision is taken within it is DEDUCED (log 22). Responses sent stand in a list of the model's own (log 8). -/
def Obligations.PortRenew : Prop :=
  ∀ (p : Port) (q : Slot) (w : Word) (s : State), lastBeatDue s p 2 q [] →
    (32 ≤ (w.extractLsb' 0 6).toNat → carriesOut (.portRenew p w) p w s (refusedByOwner p q w .noWindow none s)) ∧
    ∀ i : WinIdx, (w.extractLsb' 0 6).toNat = i.val →
      (¬ holdsGrant (s.win i) p →
        carriesOut (.portRenew p w) p w s (refusedByOwner p q w .noWindow (some i) s)) ∧
      (holdsGrant (s.win i) p →
        ((s.win i).phase = .arming →
          carriesOut (.portRenew p w) p w s (refusedByOwner p q w .notYet (some i) s)) ∧
        ((s.win i).phase = .lapsed →
          carriesOut (.portRenew p w) p w s (refusedByOwner p q w .lapsed (some i) s)) ∧
        ((s.win i).phase = .draining ∨ (s.win i).phase = .scrubWait ∨ (s.win i).phase = .scrubbing →
          carriesOut (.portRenew p w) p w s (refusedByOwner p q w .retiring (some i) s)) ∧
        ((s.win i).phase = .held ∨ (s.win i).phase = .taper →
          ((s.win i).renewBudget ≠ 0 → carriesOut (.portRenew p w) p w s (carriedOut p q w
            (renewed i (if (s.win i).renewBudget = 15 then 15 else (s.win i).renewBudget - 1) s))) ∧
          ((s.win i).renewBudget = 0 → s.tickets.get p = 0 →
            carriesOut (.portRenew p w) p w s (refusedByOwner p q w .noTicket (some i) s)) ∧
          ((s.win i).renewBudget = 0 → 0 < s.tickets.get p → ¬ tagFree s p (w.extractLsb' 8 4) →
            carriesOut (.portRenew p w) p w s
              (carriedOut p q w (repliedAtOnce p ⟨w.extractLsb' 8 4, .duplicate⟩ s))) ∧
          ((s.win i).renewBudget = 0 → 0 < s.tickets.get p → tagFree s p (w.extractLsb' 8 4) →
            s.requests.length < 16 → carriesOut (.portRenew p w) p w s
              (carriedOut p q w (joinsQueue ⟨p, w.extractLsb' 8 4, .extend i, s.clock.time⟩ s)))))

/-- RELEASE: the refusals of R33; the last holder's release retires the window, another holder's leaves it. The entry
may stand behind another. That the row and the data beat are one event is the model's choice (log 1); that the grant
decision which a drain may make due is taken within it is DEDUCED (log 22). Responses sent stand in a list of the
model's own (log 8). Scope references fall by the frames orphaned and are 0 in DRAINING (log 20). -/
def Obligations.Release : Prop :=
  ∀ (p : Port) (q : Slot) (w : Word) (s : State), lastBeatDue s p 4 q [] → engineMatches s →
    (32 ≤ (w.extractLsb' 0 6).toNat → carriesOut (.release p w) p w s (refusedByOwner p q w .noWindow none s)) ∧
    ∀ i : WinIdx, (w.extractLsb' 0 6).toNat = i.val →
      (¬ holdsGrant (s.win i) p →
        carriesOut (.release p w) p w s (refusedByOwner p q w .noWindow (some i) s)) ∧
      (holdsGrant (s.win i) p →
        ((s.win i).phase = .draining ∨ (s.win i).phase = .scrubWait ∨ (s.win i).phase = .scrubbing →
          carriesOut (.release p w) p w s (refusedByOwner p q w .retiring (some i) s)) ∧
        ((s.win i).phase = .arming ∨ (s.win i).phase = .held ∨ (s.win i).phase = .taper ∨
            (s.win i).phase = .lapsed →
          ((∀ r, r ≠ p → hasPort (s.win i).ports r = false) →
            carriesOut (.release p w) p w s (carriedOut p q w (retired i s))) ∧
          (∀ r, r ≠ p → hasPort (s.win i).ports r = true → carriesOut (.release p w) p w s (carriedOut p q w
            ({ s with scopes := s.scopes.set p ((s.scopes.get p).map (orphanedFrame i)) }.setWin i
              { s.win i with
                ports := (s.win i).ports &&& ~~~(portSetOf p)
                scopeRefs := (s.win i).scopeRefs - (s.scopes.get p).countP (countsFor i) })))))

/-- SCOPE_PUSH: the cases of R110 in their order, and the push. The entry may stand behind another. That the row and
the data beat are one event is the model's choice (log 1); that the grant decision is taken within it is DEDUCED (log
22). Responses sent stand in a list of the model's own (log 8). -/
def Obligations.ScopePush : Prop :=
  ∀ (p : Port) (q : Slot) (w : Word) (s : State), lastBeatDue s p 5 q [] →
    (8 ≤ (s.scopes.get p).length →
      (32 ≤ (w.extractLsb' 0 6).toNat →
        carriesOut (.scopePush p w) p w s (refusedByOwner p q w .stackLimit none s)) ∧
      ∀ i : WinIdx, (w.extractLsb' 0 6).toNat = i.val →
        carriesOut (.scopePush p w) p w s (refusedByOwner p q w .stackLimit (some i) s)) ∧
    ((s.scopes.get p).length < 8 →
      (32 ≤ (w.extractLsb' 0 6).toNat →
        carriesOut (.scopePush p w) p w s (refusedByOwner p q w .scopeBad none s)) ∧
      ∀ i : WinIdx, (w.extractLsb' 0 6).toNat = i.val →
        (w.extractLsb' 8 2 = 0 ∨ ¬ (holdsGrant (s.win i) p ∧ ((s.win i).phase = .held ∨ (s.win i).phase = .taper)) →
          carriesOut (.scopePush p w) p w s (refusedByOwner p q w .scopeBad (some i) s)) ∧
        (w.extractLsb' 8 2 ≠ 0 → holdsGrant (s.win i) p →
          ((s.win i).phase = .held ∨ (s.win i).phase = .taper) →
          (∀ f fs, s.scopes.get p = f :: fs → f.orphan = true →
            carriesOut (.scopePush p w) p w s (refusedByOwner p q w .scopeLost (some i) s)) ∧
          (∀ f fs, s.scopes.get p = f :: fs → f.orphan = false → ¬ narrower (s.win i) (w.extractLsb' 8 2) f →
            carriesOut (.scopePush p w) p w s (refusedByOwner p q w .scopeWiden (some i) s)) ∧
          ((∀ f fs, s.scopes.get p = f :: fs → f.orphan = false ∧ narrower (s.win i) (w.extractLsb' 8 2) f) →
            carriesOut (.scopePush p w) p w s (carriedOut p q w
              (pushed p ⟨i, w.extractLsb' 8 2, (s.win i).portBase, (s.win i).sizeClass, false⟩ s)))))

/-- SCOPE_POP: STACK_EMPTY, or the top frame goes, lowering its window's references where it is live.
PORT_CLEAR_FLAGS: the flags of the mask are cleared. The entry may stand behind another. That the row and the data
beat are one event is the model's choice (log 1); that the grant decision is taken within it is DEDUCED (log 22).
Responses sent stand in a list of the model's own (log 8). -/
def Obligations.ScopePopAndClearFlags : Prop :=
  (∀ (p : Port) (q : Slot) (w : Word) (s : State), lastBeatDue s p 6 q [] →
    (s.scopes.get p = [] → carriesOut (.scopePop p w) p w s (refusedByOwner p q w .stackEmpty none s)) ∧
    ∀ f fs, s.scopes.get p = f :: fs →
      (f.orphan = true →
        carriesOut (.scopePop p w) p w s (carriedOut p q w { s with scopes := s.scopes.set p fs })) ∧
      (f.orphan = false → carriesOut (.scopePop p w) p w s (carriedOut p q w
        ({ s with scopes := s.scopes.set p fs }.setWin f.window
          { s.win f.window with scopeRefs := (s.win f.window).scopeRefs - 1 })))) ∧
  ∀ (p : Port) (q : Slot) (w : Word) (s : State), lastBeatDue s p 7 q [] →
    carriesOut (.portClearFlags p w) p w s (carriedOut p q w
      (s.setPort p { s.port p with flags := (s.port p).flags &&& ~~~(w.extractLsb' 0 5) }))

/-- A control-write row changes nothing unless the next data beat is the last of a routed write at its own aperture
word: not during PORST, a soft reset or the port's reset, with late beats owed, without a write that waits, or where
the oldest that waits is another access, stands at another word or misses more than one beat. The model's choice (log
1). -/
def Obligations.ControlWriteRowsNeedTheirBeat : Prop :=
  ∀ (p : Port) (w : Word) (s : State),
    ∀ row ∈ [(0, Instr.newRequest p w), (2, .portRenew p w), (3, .withdraw p w), (4, .release p w),
      (5, .scopePush p w), (6, .scopePop p w), (7, .portClearFlags p w)],
    (¬ running s ∨ (s.port p).state = .inReset ∨ 0 < (s.port p).discard ∨
      (∀ e ∈ (s.port p).pending, e.progress ≠ .waitingData) ∨
      ∃ q, stands s p q ∧ oldestWaits q ∧
        (q.entry.decision ≠ .routed ∨
          4194288 ≤ q.entry.access.address.toNat ∧ q.entry.access.address.toNat ≠ 4194288 + row.1 ∨
          ∃ n, q.entry.received = some n ∧ n + 1 ≠ q.entry.access.beats)) →
    exec row.2 s = .next s

/-- One fault event: the record, FAULT, the group flag of its reason, and stop-on-fault. -/
def Obligations.AFaultEventRecordsFlagsAndStops : Prop :=
  ∀ (p : Port) (reason : Reason) (kind : FaultKind) (a : PortAddr) (window : Option WinIdx) (s : State),
    faultEvent p reason kind a window s =
      { s with
        faults := (s.faults.record ⟨reason, p, kind, a, window, (s.scopes.get p).length, s.clock.time,
          (s.port p).lastAdmitted, 1⟩).1
        attn := { s.attn with pending := s.attn.pending |||
          (if keyHeld s.faults reason p window then 0 else 2) |||
          (if (s.port p).arm = true ∧ (s.port p).state = PortState.active then 16 else 0) } }.setPort p
        { s.port p with
          flags := (s.port p).flags ||| groupMask reason
          state := if (s.port p).arm = true ∧ (s.port p).state = PortState.active then .stopped else (s.port p).state
          arm := if (s.port p).arm = true ∧ (s.port p).state = PortState.active then false else (s.port p).arm }

/-- R151: a held key takes a repeat, up to 15; a new key takes the lowest EMPTY slot; with all slots held it is lost
to the overflow count, up to 255; FAULT is set but for a repeat, and no key is stored twice. -/
def Obligations.TheFaultRecorderTakesTheFirstCase : Prop :=
  (∀ (p : Port) (reason : Reason) (kind : FaultKind) (a : PortAddr) (window : Option WinIdx) (s : State),
    (faultEvent p reason kind a window s).attn.pending.getLsbD 1 = true ↔
      s.attn.pending.getLsbD 1 = true ∨ ¬ keyHeld s.faults reason p window) ∧
  (∀ (f : FaultRecorder) (r : FaultRecord),
    (∀ (n m : Fin 8) (x y : FaultRecord), f.slots[n] = some x → f.slots[m] = some y → sameKey x y → n = m) →
    ∀ (n m : Fin 8) (x y : FaultRecord), (f.record r).1.slots[n] = some x → (f.record r).1.slots[m] = some y →
      sameKey x y → n = m) ∧
  ∀ (f : FaultRecorder) (r : FaultRecord),
    (∀ (n : Fin 8) (x : FaultRecord), f.slots[n] = some x → sameKey x r →
      (∀ m : Fin 8, m < n → ∀ y, f.slots[m] = some y → ¬ sameKey y r) →
      f.record r = ({ f with slots := f.slots.set n (some { x with repeats := min 15 (x.repeats + 1) }) }, false)) ∧
    ((∀ (n : Fin 8) (x : FaultRecord), f.slots[n] = some x → ¬ sameKey x r) →
      (∀ n : Fin 8, f.slots[n] = none → (∀ m : Fin 8, m < n → f.slots[m] ≠ none) →
        f.record r = ({ f with slots := f.slots.set n (some r) }, true)) ∧
      ((∀ n : Fin 8, f.slots[n] ≠ none) →
        f.record r = ({ f with overflow := min 255 (f.overflow + 1) }, true)))

/-! ## Lease clock and deadlines -/

/-- When a deadline is reached, its remaining time, the durations of the codes, the deadline a phase gets (R72, R73,
R74, R76). Lease time advances by 1 at a tick that is due, returns to 0 where the part is reset or a soft reset ends,
and changes nowhere else; which rows are that tick and that end is the model's choice (log 17). -/
def Obligations.DeadlinesAndDurations : Prop :=
  (∀ t d : LeaseTime,
    (deadlineReached t d = true ↔ (t.toNat + 2 ^ 32 - d.toNat) % 2 ^ 32 < 2 ^ 31) ∧
    remaining t d = (d.toNat + 2 ^ 32 - t.toNat) % 2 ^ 32 ∧
    (1 ≤ remaining t d → remaining t d ≤ 2 ^ 31 → deadlineReached t d = false) ∧
    (1 ≤ remaining t d → remaining (t + 1) d + 1 = remaining t d) ∧
    (remaining t d = 0 → deadlineReached t d = true)) ∧
  (∀ (t : LeaseTime) (n : Nat), 1 ≤ n → n ≤ 2048000 →
    remaining t (t + BitVec.ofNat 32 n) = n ∧ deadlineReached t (t + BitVec.ofNat 32 n) = false) ∧
  (∀ (c : Code) (scale : BitVec 2) (n : Nat),
    [0, 1, 2, 3, 5, 8, 12, 20, 30, 50, 80, 120, 200, 300, 500][c.toNat]? = some n →
    duration c scale = n * 16 ^ scale.toNat ∧ duration c scale ≤ 2048000) ∧
  (∀ (i : WinIdx) (ph : Phase) (c : Code) (s : State), ((enterPhase i ph c s).win i).deadline =
    if 1 ≤ c.toNat ∧ c.toNat ≤ 14 then some (s.clock.time + BitVec.ofNat 32 (duration c (s.win i).scale))
    else none) ∧
  ∀ (c : Instr) (s t : State), exec c s = .next t →
    t.clock.time = s.clock.time ∨
    ((c = .leaseTick ∨ (∃ order, c = .lclkPeriod order) ∨
        ∃ i, c = .onsetExpiry i ∨ c = .holdExpiry i ∨ c = .taperExpiry i) ∧
      running s ∧ tickNow s ∧ t.clock.time = s.clock.time + 1) ∨
    ((c ∈ [Instr.porstAssert, .powerOnReset, .softReset] ∨
        s.softReset = true ∧ c ∈ [Instr.softResetEnd, .portBurstComplete, .scrubBurstComplete, .fillComplete]) ∧
      t.clock.time = 0)

/-- DATA_DEADLINE of an entry that waits for data: the missing beats join the discard count, the binding ends, which
may end a drain, and the answer is DATA_TIMEOUT with its fault event, or the reason the write was refused with. The
LCLK period that brings the only entry's count to 0 has the same outcome. The row's extent is the model's choice (log
17); that the grant decision is taken within the event is DEDUCED (log 22). Responses sent stand in a list of the
model's own (log 8). -/
def Obligations.DataDeadline : Prop :=
  ∀ (p : Port) (s u : State) (q : Slot) (n : Nat), running s → engineMatches s → stands s p q →
    q.entry.progress = .waitingData → q.entry.deadlineCount = some 1 → q.entry.access.kind = .write →
    q.entry.received = some n → n < q.entry.access.beats →
    u = s.setPort p { s.port p with discard := (s.port p).discard + (q.entry.access.beats - n) } →
    (∀ addrs lanes trimmed bound, q.entry.decision = .admitted addrs lanes trimmed bound →
      exec (.dataDeadline p q.older.length) s = .next (grantDecision (answeredAt p q ⟨.refused, some .dataTimeout, []⟩
        (faultEvent p .dataTimeout .write q.entry.access.address bound (unboundFrom bound u))))) ∧
    (q.entry.decision = .allAborted →
      exec (.dataDeadline p q.older.length) s = .next (grantDecision (answeredAt p q ⟨.refused, some .dataTimeout, []⟩
        (faultEvent p .dataTimeout .write q.entry.access.address none u)))) ∧
    (q.entry.decision = .routed →
      exec (.dataDeadline p q.older.length) s = .next (grantDecision (answeredAt p q ⟨.refused, some .dataTimeout, []⟩
        (faultEvent p .dataTimeout .control q.entry.access.address none u)))) ∧
    (∀ reason, q.entry.decision = .refused reason →
      exec (.dataDeadline p q.older.length) s =
        .next (grantDecision (answeredAt p q ⟨.refused, some reason, []⟩ u))) ∧
    (q.older = [] → q.younger = [] → s.clock.run = false → (∀ r, r ≠ p → (s.port r).pending = []) →
      (∀ w, q.entry.decision ≠ .served w) → exec (.lclkPeriod []) s = exec (.dataDeadline p 0) s)

/-- LCLK_PERIOD: the counts, then the tick, the data deadlines and the grant decisions that fall together, in the
order the operand gives and then in the model's own (log 4); whatever the order, no data deadline stays due and a tick
that is due is taken once. LCLK_PERIOD in which no tick and no deadline falls due, LCLK_PERIOD that completes a tick
period, which is that lease tick on the lowered deadline counts, and LEASE_TICK in which nothing expires. The row's
extent is the model's choice (log 17), and so is the list of responses sent (log 8); that the last grant decision is
taken within the event is DEDUCED (log 22). -/
def Obligations.LclkPeriodsAndTicksCount : Prop :=
  (∀ (order : List LclkPart) (s : State), running s → Invariants s →
    exec (.lclkPeriod order) s =
      .next (grantDecision (inOrder (order ++ everyPart) (decide (tickNow s)) (periodCounted s)))) ∧
  (∀ (order : List LclkPart) (s t : State), running s → Invariants s →
    (∀ p, ∀ e ∈ (s.port p).pending, e.progress = .waitingData → ∀ w, e.decision ≠ .served w) →
    exec (.lclkPeriod order) s = .next t →
    (∀ p, ∀ e ∈ (t.port p).pending, e.progress = .waitingData → e.deadlineCount ≠ some 0) ∧
    t.clock = { s.clock with
      expiry := t.clock.expiry
      time := if tickNow s then s.clock.time + 1 else s.clock.time
      periodDivisor := if tickNow s then s.clock.divisor else s.clock.periodDivisor
      prescaler := if tickNow s then 0 else if s.clock.run = true then s.clock.prescaler + 1
        else s.clock.prescaler }) ∧
  (∀ (order : List LclkPart) (s : State), running s → noGrantDue s →
    ¬ (s.clock.run = true ∧ s.clock.periodDivisor ≤ s.clock.prescaler + 1) →
    (∀ p, ∀ e ∈ (s.port p).pending, ∀ n, e.deadlineCount = some n → 2 ≤ n) →
    ∃ t, exec (.lclkPeriod order) s = .next t ∧
      (∀ p, t.port p = { s.port p with pending := (s.port p).pending.map fun e =>
        if e.progress = .waitingData then { e with deadlineCount := e.deadlineCount.map (· - 1) } else e }) ∧
      t.piu = (deadlinesLowered s).piu ∧
      t = { s with
        piu := t.piu
        clock := { s.clock with
          prescaler := if s.clock.run = true then s.clock.prescaler + 1 else s.clock.prescaler } }) ∧
  (∀ (order : List LclkPart) (s : State), running s → noGrantDue s → s.clock.run = true →
    s.clock.periodDivisor ≤ s.clock.prescaler + 1 →
    (∀ p, ∀ e ∈ (s.port p).pending, ∀ n, e.deadlineCount = some n → 2 ≤ n) →
    exec (.lclkPeriod order) s = exec .leaseTick (deadlinesLowered s)) ∧
  (∀ s : State, running s → noGrantDue s → s.clock.run = true → s.clock.periodDivisor ≤ s.clock.prescaler + 1 →
    (∀ e es, s.clock.expiry = e :: es → deadlineReached (s.clock.time + 1) e.deadline = false) →
    exec .leaseTick s = .next { s with clock := { s.clock with
      prescaler := 0, periodDivisor := s.clock.divisor, time := s.clock.time + 1 } }) ∧
  ∀ s : State, ¬ (running s ∧ s.clock.run = true ∧ s.clock.periodDivisor ≤ s.clock.prescaler + 1) →
    exec .leaseTick s = .next s

/-- LEASE_TICK, ONSET_EXPIRY, HOLD_EXPIRY and TAPER_EXPIRY: the tick that reaches the first entries of the expiry list
takes their expiries in list order, and the expiry row of the first window is that tick. The row's extent is the
model's choice (log 17); that the grant decision is taken within the event is DEDUCED (log 22). A window that retires
at a count of 0 without the scrub flag is FREE within the tick (log 25), and LAPSE is set at every lapse (log 26). -/
def Obligations.Expiries : Prop :=
  ∀ (s u : State) (reached later : List Expiry), running s → engineMatches s → s.clock.run = true →
    s.clock.periodDivisor ≤ s.clock.prescaler + 1 → s.clock.expiry = reached ++ later →
    (∀ e ∈ reached, e.deadline = s.clock.time + 1 ∧
      ((s.win e.window).phase = .arming ∨ (s.win e.window).phase = .held ∨ (s.win e.window).phase = .taper)) →
    (reached.map (·.window)).Nodup → (∀ e ∈ later, deadlineReached (s.clock.time + 1) e.deadline = false) →
    u = { s with clock := { s.clock with
      prescaler := 0, periodDivisor := s.clock.divisor, time := s.clock.time + 1 } } →
    exec .leaseTick s = .next (grantDecision ((reached.map (·.window)).foldl expired u)) ∧
    ∀ i more, reached = ⟨i, s.clock.time + 1⟩ :: more →
      ((s.win i).phase = .arming → exec (.onsetExpiry i) s =
        .next (grantDecision ((more.map (·.window)).foldl expired (inPhase i .held (s.win i).hold u)))) ∧
      ((s.win i).phase = .held → (s.win i).kind = .grant → (s.win i).taper ≠ 0 → exec (.holdExpiry i) s =
        .next (grantDecision ((more.map (·.window)).foldl expired (inPhase i .taper (s.win i).taper u)))) ∧
      ((s.win i).phase = .held → (s.win i).kind = .fence ∨ (s.win i).taper = 0 → exec (.holdExpiry i) s =
        .next (grantDecision ((more.map (·.window)).foldl expired (lapsed i u)))) ∧
      ((s.win i).phase = .taper → exec (.taperExpiry i) s =
        .next (grantDecision ((more.map (·.window)).foldl expired (lapsed i u))))

/-! ## Memory sequencer and Scrub Engine -/

/-- BURST_GRANT: without a decision due nothing changes; the Scrub Engine first by the share or without a port
candidate; otherwise the first candidate port after the last granted one. BURST_GRANT is the decision itself (log 22).
-/
def Obligations.TheGrantDecision : Prop :=
  (∀ s : State, noGrantDue s → exec .burstGrant s = .next s) ∧
  (∀ (s : State) (i : WinIdx) (off rem : Nat) (target : SramAddr), running s → s.seq.burst = none →
    s.scrub.state = .running → s.scrub.progress = some ⟨i, off, rem⟩ → 0 < rem →
    (s.win i).target = some target →
    (1 ≤ s.clock.share.toNat ∧ s.clock.share.toNat ≤ s.seq.shareCount ∨ ∀ p, portCandidate s p = false) →
    exec .burstGrant s = .next { s with seq := { s.seq with
      shareCount := 0
      burst := some {
        source := .scrub, kind := .write, beats := 4,
        addrs := [0, 1, 2, 3].map fun n => BitVec.ofNat 20 (target.toNat + off + n),
        lanes := [15, 15, 15, 15],
        data := [s.scrub.pattern, s.scrub.pattern, s.scrub.pattern, s.scrub.pattern],
        bound := none, scrubAt := some (i, off) } } }) ∧
  ∀ (s : State) (p : Port) (before after : List Port) (e : Entry) (es : List Entry) (addrs : List SramAddr)
    (lanes : List LaneSet) (trimmed : Bool) (bound : Option WinIdx), running s → s.seq.burst = none →
    scrubCandidate s = false ∨ ¬ (1 ≤ s.clock.share.toNat ∧ s.clock.share.toNat ≤ s.seq.shareCount) →
    [portAfter s.seq.lastGranted, portAfter (portAfter s.seq.lastGranted),
      portAfter (portAfter (portAfter s.seq.lastGranted)), s.seq.lastGranted] = before ++ p :: after →
    (∀ q ∈ before, portCandidate s q = false) → (s.port p).pending = e :: es → e.progress = .ready →
    e.decision = .admitted addrs lanes trimmed bound →
    exec .burstGrant s = .next ({ s with seq := ⟨p, min 15 (s.seq.shareCount + 1),
      some ⟨.port p, e.access.kind, e.access.beats, addrs,
        if e.access.kind = AccessKind.write then lanes else [], e.kept, bound, none⟩⟩ }.setPort p
        { s.port p with pending := { e with progress := .executing } :: es })

/-- PORT_BURST_COMPLETE of the port's oldest entry: the binding, which may end a drain, the response and those behind
it, the SRAM idle, and then the grant decision that is due (log 22). That the SRAM changes, and a READ's words are
taken, at the completion is the model's choice (log 7). Responses sent stand in a list of the model's own (log 8). -/
def Obligations.PortBurstCompletes : Prop :=
  ∀ (s u : State) (b : Burst) (p : Port) (e : Entry) (es : List Entry), s.seq.burst = some b → b.source = .port p →
    s.softReset = false → engineMatches s → (s.port p).pending = e :: es → e.access.kind = b.kind →
    u = unboundFrom b.bound { s with
      seq := { s.seq with burst := none }
      sram := if b.kind = AccessKind.write then writeBeats b.addrs b.lanes b.data s.sram else s.sram } →
    (e.dropped = false → b.kind = .read → exec .portBurstComplete s = .next (grantDecision
      (answeredAt p ⟨[], e, es⟩ ⟨.ok, none, b.addrs.map s.sramWord⟩ u))) ∧
    (e.dropped = false → b.kind = .write → exec .portBurstComplete s = .next (grantDecision
      (answeredAt p ⟨[], e, es⟩
        (match e.decision with
          | .admitted _ _ true _ => ⟨.trimmed, none, []⟩
          | .admitted _ _ false _ | .allAborted | .refused _ | .routed | .served _ => ⟨.ok, none, []⟩) u))) ∧
    (e.dropped = true → exec .portBurstComplete s = .next (grantDecision (followed p es u)))

/-- A completed write burst writes the lanes of its beats and no other byte of the SRAM. The moment is the model's
choice (log 7). -/
def Obligations.AWriteBurstWritesItsLanes : Prop :=
  ∀ (s : State) (b : Burst), s.seq.burst = some b → b.kind = .write → b.addrs.Nodup →
    b.lanes.length = b.addrs.length → b.data.length = b.addrs.length →
    ∃ t, exec (match b.source with | .port _ => .portBurstComplete | .scrub => .scrubBurstComplete) s = .next t ∧
      (∀ (k n : Nat) (hk : k < b.addrs.length) (hl : k < b.lanes.length) (hd : k < b.data.length), n < 4 →
        t.sramByte (laneKey b.addrs[k] n) =
          if b.lanes[k].getLsbD n = true then b.data[k].extractLsb' (8 * n) 8
          else s.sramByte (laneKey b.addrs[k] n)) ∧
      ∀ key : Nat, (∀ a ∈ b.addrs, ∀ n < 4, laneKey a n ≠ key) → t.sramByte key = s.sramByte key

/-- SCRUB_BURST_COMPLETE and FILL_COMPLETE: a group is counted; the last one frees the window, sets SCRUB_DONE and
takes the next window, or the engine is IDLE. The row's extent (log 17) and the moment of the SRAM's change (log 7)
are the model's choice; the grant decision within the event is DEDUCED (log 22). -/
def Obligations.ScrubBurstCompletes : Prop :=
  ∀ (s u : State) (b : Burst) (i : WinIdx) (off rem : Nat), s.seq.burst = some b → b.source = .scrub →
    b.kind = .write → s.softReset = false → s.scrub.progress = some ⟨i, off, rem⟩ →
    u = { s with seq := { s.seq with burst := none }, sram := writeBeats b.addrs b.lanes b.data s.sram } →
    (4 < rem → exec .scrubBurstComplete s = .next (grantDecision { u with scrub := { s.scrub with
        progress := some ⟨i, off + 4, rem - 4⟩ } }) ∧ exec .fillComplete s = .next s) ∧
    (rem = 4 → s.scrub.list = [] →
      exec .scrubBurstComplete s = .next (grantDecision (({ u with scrub := { s.scrub with
        progress := none, state := .idle } }.setWin i Window.cleared).raise 8)) ∧
      exec .fillComplete s = exec .scrubBurstComplete s) ∧
    ∀ j rest, rem = 4 → s.scrub.list = j :: rest → j ≠ i → s.scrub.state ≠ .idle →
      exec .scrubBurstComplete s = .next (grantDecision ((({ u with scrub := { s.scrub with
        progress := some ⟨j, 0, 2 ^ (s.win j).sizeClass.toNat⟩, list := rest } }.setWin i Window.cleared).setWin j
          { s.win j with phase := .scrubbing }).raise 8)) ∧
      exec .fillComplete s = exec .scrubBurstComplete s

/-- DRAIN_END: a drain that stands at a count of 0 moves the window on; otherwise nothing changes. The row's extent is
the model's choice (log 17); the grant decision within the event is DEDUCED (log 22). -/
def Obligations.DrainEnd : Prop :=
  ∀ (i : WinIdx) (s : State), engineMatches s →
    (¬ ((s.win i).phase = .draining ∧ (s.win i).inFlight = 0) → exec (.drainEnd i) s = .next s) ∧
    ((s.win i).phase = .draining → (s.win i).inFlight = 0 →
      ((s.win i).scrub = false →
        exec (.drainEnd i) s = .next (grantDecision (s.setWin i Window.cleared))) ∧
      ((s.win i).scrub = true → s.scrub.state ≠ .idle →
        exec (.drainEnd i) s = .next (grantDecision ({ s with scrub := { s.scrub with
          list := s.scrub.list ++ [i] } }.setWin i { s.win i with phase := .scrubWait }))) ∧
      ((s.win i).scrub = true → s.scrub.state = .idle →
        exec (.drainEnd i) s = .next (grantDecision ({ s with scrub := { s.scrub with
          state := .running, progress := some ⟨i, 0, 2 ^ (s.win i).sizeClass.toNat⟩, list := [] } }.setWin i
            { s.win i with phase := .scrubbing }))))

/-! ## Frames -/

/-- FRAME_OPEN, and MANAGEMENT_CLOCK_PERIOD in each frame state. The closed frame's fields are 0 (log 12) and the
payload length of an unassigned selector is 0 (log 13) by the model's choice. Select is followed during PORST and the
periods change nothing there (log 24). -/
def Obligations.FramesOpenAndShift : Prop :=
  ∀ s : State,
    (s.mgmt.select = false → s.mgmt.frame = .closed → s.porst = false → exec .frameOpen s = .next { s with
      mgmt := { s.mgmt with
        select := true, frame := .selector, bitCount := 0, selector := 0, captured := 0, incoming := 0,
        dataOut := false } }) ∧
    (s.mgmt.select = false → s.porst = true →
      exec .frameOpen s = .next { s with mgmt := { s.mgmt with select := true } }) ∧
    (s.mgmt.select = true → exec .frameOpen s = .next s) ∧
    ∀ bit : Bool,
      (s.porst = true ∨ s.mgmt.select = false ∨ s.mgmt.frame = .closed →
        exec (.managementClockPeriod bit) s = .next s) ∧
      (s.porst = false → s.mgmt.select = true → s.mgmt.frame = .selector → s.mgmt.bitCount < 7 →
        exec (.managementClockPeriod bit) s = .next { s with mgmt := { s.mgmt with
          selector := (s.mgmt.selector <<< 1) ||| BitVec.ofNat 8 bit.toNat
          bitCount := s.mgmt.bitCount + 1 } }) ∧
      (s.porst = false → s.mgmt.select = true → s.mgmt.frame = .selector → s.mgmt.bitCount = 7 →
        exec (.managementClockPeriod bit) s = .next { s with mgmt := { s.mgmt with
          selector := (s.mgmt.selector <<< 1) ||| BitVec.ofNat 8 bit.toNat
          captured := captureOf ((s.mgmt.selector <<< 1) ||| BitVec.ofNat 8 bit.toNat) s
          incoming := 0, bitCount := 0, frame := .payload } }) ∧
      ∀ len, s.porst = false → s.mgmt.select = true → s.mgmt.frame = .payload →
        len = payloadLength s.mgmt.selector →
        (s.mgmt.bitCount < len → exec (.managementClockPeriod bit) s = .next { s with mgmt := { s.mgmt with
          dataOut := s.mgmt.captured.getLsbD (len - 1 - s.mgmt.bitCount)
          incoming := (s.mgmt.incoming <<< 1) ||| BitVec.ofNat 160 bit.toNat
          bitCount := s.mgmt.bitCount + 1 } }) ∧
        (s.mgmt.bitCount = len ∨ s.mgmt.bitCount = len + 1 →
          exec (.managementClockPeriod bit) s = .next { s with mgmt := { s.mgmt with
            dataOut := false, bitCount := len + 1 } })

/-- R170: the identification code, its fields, the same in every state; an unassigned selector captures zeros. -/
def Obligations.IdentIsFixed : Prop :=
  ∀ s : State, captureOf 0 s = 0x5A487FFF ∧
    (captureOf 0 s).extractLsb' 24 8 = 0x5A ∧ (captureOf 0 s).extractLsb' 18 6 = 0x12 ∧
    (captureOf 0 s).extractLsb' 14 4 = 1 ∧ (captureOf 0 s).extractLsb' 12 2 = 4 - 1 ∧
    (captureOf 0 s).extractLsb' 7 5 = 32 - 1 ∧ (captureOf 0 s).extractLsb' 3 4 = 16 - 1 ∧
    (captureOf 0 s).extractLsb' 0 3 = 8 - 1 ∧ ∀ sel : BitVec 8, registerOf sel = none → captureOf sel s = 0

/-- What the capture of each register holds, bit by bit (R165, R169, sections 11.4.1 to 11.4.7). The counts fit their
fields by the invariants. -/
def Obligations.RegisterCaptures : Prop :=
  ∀ s : State, Invariants s →
    captureOf 1 s = (statusLayout s).setWidth 160 ∧
    captureOf 2 s = s.attn.enables.setWidth 160 ∧
    captureOf 3 s = s.attn.pending.setWidth 160 ∧
    captureOf 4 s = (clockLayout s.clock).setWidth 160 ∧
    captureOf 5 s = (scrubLayout s.scrub).setWidth 160 ∧
    (captureOf 6 s).extractLsb' 136 24 = 0 ∧ (captureOf 6 s).getLsbD 135 = s.map.enabled ∧
    (captureOf 6 s).extractLsb' 128 7 = 0 ∧
    (∀ (g : Fin 16) (p : Port), (captureOf 6 s).extractLsb' (8 * (15 - g.val) + 2 * portCode p) 2 =
      codeIn 2 [MapEntry.none, .read, .readWrite] (s.map.entries[g].get p)) ∧
    captureOf 7 s = (headLayout s.requests).setWidth 160 ∧
    captureOf 8 s = (resultLayout s.mgmt.lastResult).setWidth 160 ∧
    (∀ p : Port, captureOf (BitVec.ofNat 8 (0x10 + portCode p)) s = (portLayout s p).setWidth 160) ∧
    (∀ n : Fin 8, captureOf (BitVec.ofNat 8 (0x20 + n.val)) s = (faultLayout s.faults.slots[n]).setWidth 160) ∧
    ∀ i : WinIdx, captureOf (BitVec.ofNat 8 (0x40 + i.val)) s = windowLayout (s.win i)

/-- The frame ends that update nothing: MALFORMED_FRAME, READ_ONLY_FRAME, NULL_ACTION, and BAD_ACTION, whose result is
BAD_ACTION. The closed frame's fields are 0 by the model's choice (log 12). A MALFORMED_FRAME with no frame open only
releases select (log 14). -/
def Obligations.FrameEndsWithoutUpdate : Prop :=
  ∀ s : State,
    (s.mgmt.frame = .selector → exec .malformedFrame s = .next { s with mgmt := released s.mgmt true }) ∧
    (s.mgmt.frame = .payload →
      (registerOf s.mgmt.selector = none ∨ s.mgmt.bitCount ≠ payloadLength s.mgmt.selector) →
      exec .malformedFrame s = .next { s with mgmt := released s.mgmt true }) ∧
    (s.mgmt.frame = .closed →
      exec .malformedFrame s = .next { s with mgmt := { s.mgmt with select := false } }) ∧
    (exactFrame s 0 32 ∨ exactFrame s 1 32 ∨ exactFrame s 7 128 ∨
        (∃ n : Fin 8, exactFrame s (BitVec.ofNat 8 (0x20 + n.val)) 128) ∨
        (∃ n : Fin 32, exactFrame s (BitVec.ofNat 8 (0x40 + n.val)) 160) →
      exec .readOnlyFrame s = .next (frameDone s)) ∧
    (actionStands s 0 → exec .nullAction s = .next (frameDone s)) ∧
    ∀ code : BitVec 5, 16 ≤ code.toNat → actionStands s code →
      exec .badAction s = .next (actionFails s .badAction none)

/-- R160 and R161: ATTN_ENABLE and ATTN_ACK. The enables of the set follow the fill bit; the pending flags of the set
are cleared, REQUEST only with an empty queue; ATTN follows. CLOCK: divisor, run flag and scrub share together, and
the four cases of the prescaler. SCRUB_UPDATE, FIXED_MAP and PORT_ARM_UPDATE: the writable fields, and nothing else.
The closed frame's fields are 0 by the model's choice (log 12). -/
def Obligations.RegisterUpdates : Prop :=
  (∀ s : State,
    (exactFrame s 2 8 → exec .attnEnable s = .next { frameDone s with attn := { s.attn with
      enables := if s.mgmt.incoming.getLsbD 7 = true then s.attn.enables ||| s.mgmt.incoming.extractLsb' 0 5
        else s.attn.enables &&& ~~~(s.mgmt.incoming.extractLsb' 0 5) } }) ∧
    (exactFrame s 3 8 → exec .attnAck s = .next { frameDone s with attn := { s.attn with
      pending := if s.requests = [] then s.attn.pending &&& ~~~(s.mgmt.incoming.extractLsb' 0 5)
        else s.attn.pending &&& ~~~(s.mgmt.incoming.extractLsb' 0 5 &&& ~~~1) } }) ∧
    (s.attnOutput = true ↔ ∃ n : Fin 5, s.attn.pending.getLsbD n.val = true ∧ s.attn.enables.getLsbD n.val = true)) ∧
  (∀ (s : State) (d : Nat) (run : Bool), exactFrame s 4 64 →
    d = (if s.mgmt.incoming.extractLsb' 32 16 = 0 then 65536 else (s.mgmt.incoming.extractLsb' 32 16).toNat) →
    run = s.mgmt.incoming.getLsbD 63 →
    exec .clock s = .next { frameDone s with clock := { s.clock with
      divisor := d
      run := run
      share := s.mgmt.incoming.extractLsb' 59 4
      periodDivisor := if s.clock.run = true ∧ run = true then s.clock.periodDivisor else d
      prescaler := if s.clock.run = run then s.clock.prescaler else 0 } }) ∧
  ∀ s : State,
    (exactFrame s 5 128 → exec .scrubUpdate s = .next { frameDone s with scrub := { s.scrub with
      pattern := s.mgmt.incoming.extractLsb' 96 32 } }) ∧
    (exactFrame s 6 136 → ∃ m : FixedMap, exec .fixedMap s = .next { frameDone s with map := m } ∧
      m.enabled = s.mgmt.incoming.getLsbD 135 ∧
      ∀ (g : Fin 16) (p : Port), m.entries[g].get p =
        if s.mgmt.incoming.extractLsb' (8 * (15 - g.val) + 2 * portCode p) 2 = 1 then .read
        else if s.mgmt.incoming.extractLsb' (8 * (15 - g.val) + 2 * portCode p) 2 = 2 then .readWrite
        else .none) ∧
    ∀ p : Port, exactFrame s (BitVec.ofNat 8 (0x10 + portCode p)) 32 →
      exec .portArmUpdate s = .next ((frameDone s).setPort p { s.port p with arm := s.mgmt.incoming.getLsbD 23 })

/-! ## Actions -/

/-- R23: the checks of a creation in their order. -/
def Obligations.CreationChecksInOrder : Prop :=
  ∀ (n : NewWindow) (s : State) (geometry envelope range overlap busy : Prop),
    (geometry ↔ n.ports = 0 ∨ n.sizeClass.toNat < 4 ∨ 20 < n.sizeClass.toNat ∨
      n.portBase.toNat % 2 ^ n.sizeClass.toNat ≠ 0 ∨
      (n.kind = .grant ∧ n.target.toNat % 2 ^ n.sizeClass.toNat ≠ 0)) →
    (envelope ↔ n.hold = 0 ∨ (n.kind = .fence ∧ n.taper ≠ 0) ∨ (n.kind = .fence ∧ n.scrub = true)) →
    (range ↔ n.kind = .grant ∧ 1048576 < n.target.toNat + 2 ^ n.sizeClass.toNat) →
    (overlap ↔ n.kind = .grant ∧ ∃ (i : WinIdx) (p : Port), holdsGrant (s.win i) p ∧ hasPort n.ports p = true ∧
      (s.win i).portBase.toNat < n.portBase.toNat + 2 ^ n.sizeClass.toNat ∧
      n.portBase.toNat < (s.win i).portBase.toNat + 2 ^ (s.win i).sizeClass.toNat) →
    (busy ↔ n.kind = .grant ∧ ∃ i : WinIdx, (s.win i).phase ≠ .free ∧ (s.win i).kind = .grant ∧
      ((s.win i).target.getD 0).toNat < n.target.toNat + 2 ^ n.sizeClass.toNat ∧
      n.target.toNat < ((s.win i).target.getD 0).toNat + 2 ^ (s.win i).sizeClass.toNat ∧
      (n.scrub = true ∨ (s.win i).scrub = true)) →
    (geometry → creationFault n s = some .badGeometry) ∧
    (¬ geometry → envelope → creationFault n s = some .badEnvelope) ∧
    (¬ geometry → ¬ envelope → range → creationFault n s = some .targetRange) ∧
    (¬ geometry → ¬ envelope → ¬ range → overlap → creationFault n s = some .overlap) ∧
    (¬ geometry → ¬ envelope → ¬ range → ¬ overlap → busy → creationFault n s = some .targetBusy) ∧
    (¬ geometry → ¬ envelope → ¬ range → ¬ overlap → ¬ busy → creationFault n s = none)

/-- The fields of the action record and what CREATE asks for with them. CREATE: the failing check's code,
NO_FREE_WINDOW, or the FREE window of lowest index with the operands, in its first phase. The closed frame's fields
are 0 by the model's choice (log 12). -/
def Obligations.Create : Prop :=
  (∀ x : Payload, actionRecordOf x = recordLayout x) ∧
  (∀ r : ActionRecord, createOperands r = {
    kind := r.kind, ports := r.ports, portBase := r.portBase, sizeClass := r.sizeClass, target := r.target,
    rights := r.rights, writeLanes := r.writeLanes, lanePolicy := r.lanePolicy, scrub := r.scrub,
    autoRetire := r.autoRetire, onset := r.onset, hold := r.hold, taper := r.taper, scale := r.scale,
    renewBudget := r.budget, origin := none }) ∧
  ∀ s : State, actionStands s 1 →
    (∀ code, creationFault (createOperands (record s)) s = some code →
      exec .create s = .next (actionFails s code none)) ∧
    (creationFault (createOperands (record s)) s = none →
      ((∀ i, (s.win i).phase ≠ .free) → exec .create s = .next (actionFails s .noFreeWindow none)) ∧
      ∀ i, (s.win i).phase = .free → (∀ j, j < i → (s.win j).phase ≠ .free) →
        exec .create s = .next (withResult .done (some i) s.clock.time
          (created i (createOperands (record s)) (frameDone s))))

/-- GRANT_HEAD and REFUSE_HEAD: the head check; a NEW head granted or left in place; an EXTEND head renewed or left in
place; a head refused. What a NEW head is granted: rights and lanes common to request and action, target and envelope
from the action, policy and scrub from the request. The closed frame's fields are 0 by the model's choice (log 12).
They answer the head during a soft reset too (DEDUCED, log 29). -/
def Obligations.HeadActions : Prop :=
  (∀ (p : Port) (tag : Tag) (f : NewFields) (r : ActionRecord), grantOperands p tag f r = {
    kind := .grant, ports := BitVec.ofNat 4 (2 ^ portCode p), portBase := f.portBase, sizeClass := f.sizeClass,
    target := r.target, rights := f.rights &&& r.rights, writeLanes := f.writeLanes &&& r.writeLanes,
    lanePolicy := f.lanePolicy, scrub := f.scrubWanted, autoRetire := r.autoRetire, onset := r.onset,
    hold := r.hold, taper := r.taper, scale := r.scale, renewBudget := r.budget, origin := some (p, tag) }) ∧
  ∀ s : State,
    (s.requests = [] →
      (actionStands s 2 → exec .grantHead s = .next (actionFails s .queueEmpty none)) ∧
      (actionStands s 3 → exec .refuseHead s = .next (actionFails s .queueEmpty none))) ∧
    ∀ (r : Request) (rest : List Request), s.requests = r :: rest →
      (¬ (r.port = (record s).port ∧ r.tag = (record s).tag) →
        (actionStands s 2 → exec .grantHead s = .next (actionFails s .staleHead none)) ∧
        (actionStands s 3 → exec .refuseHead s = .next (actionFails s .staleHead none))) ∧
      (r.port = (record s).port → r.tag = (record s).tag →
        (actionStands s 3 → exec .refuseHead s = .next (withResult .done none s.clock.time
          (headAnswered r rest (.refused (record s).refusal) (frameDone s)))) ∧
        (∀ f, actionStands s 2 → r.body = .new f →
          (∀ code, creationFault (grantOperands r.port r.tag f (record s)) s = some code →
            exec .grantHead s = .next (actionFails s code none)) ∧
          (creationFault (grantOperands r.port r.tag f (record s)) s = none →
            ((∀ i, (s.win i).phase ≠ .free) →
              exec .grantHead s = .next (actionFails s .noFreeWindow none)) ∧
            ∀ i, (s.win i).phase = .free → (∀ j, j < i → (s.win j).phase ≠ .free) →
              exec .grantHead s = .next (withResult .done (some i) s.clock.time
                (headAnswered r rest (.granted i)
                  (created i (grantOperands r.port r.tag f (record s)) (frameDone s)))))) ∧
        ∀ i, actionStands s 2 → r.body = .extend i →
          (holdsGrant (s.win i) r.port ∧
              ((s.win i).phase = .held ∨ (s.win i).phase = .taper ∨ (s.win i).phase = .lapsed) →
            exec .grantHead s = .next (withResult .done (some i) s.clock.time
              (headAnswered r rest (.granted i) (renewed i (record s).budget (frameDone s))))) ∧
          (¬ (holdsGrant (s.win i) r.port ∧
              ((s.win i).phase = .held ∨ (s.win i).phase = .taper ∨ (s.win i).phase = .lapsed)) →
            exec .grantHead s = .next (actionFails s .wrongState (some i))))

/-- AMEND: its checks in their order, and the amendment, which orphans the frames of the ports it removes. The closed
frame's fields are 0 by the model's choice (log 12). Scope references fall by the frames orphaned (log 20). It orphans
during a soft reset too (DEDUCED, log 29). -/
def Obligations.Amend : Prop :=
  ∀ s : State, actionStands s 4 →
    (32 ≤ (record s).index.toNat → exec .amend s = .next (actionFails s .badIndex none)) ∧
    ∀ i, namesWindow s i →
      (¬ changeable (s.win i) → exec .amend s = .next (actionFails s .wrongState (some i))) ∧
      (changeable (s.win i) → (record s).ports = 0 →
        exec .amend s = .next (actionFails s .badGeometry (some i))) ∧
      (changeable (s.win i) → (record s).ports ≠ 0 → amendCollides s i →
        exec .amend s = .next (actionFails s .overlap (some i))) ∧
      (changeable (s.win i) → (record s).ports ≠ 0 → ¬ amendCollides s i →
        ∃ t, exec .amend s = .next t ∧
          t.mgmt = { released s.mgmt false with lastResult := ⟨.done, some i, s.clock.time⟩ } ∧
          t.win i = { s.win i with
            ports := (record s).ports
            rights := (record s).rights
            writeLanes := (record s).writeLanes
            lanePolicy := if (s.win i).kind = .grant then (record s).lanePolicy else .strict
            renewBudget := (record s).budget
            autoRetire := (record s).autoRetire
            scopeRefs := (s.win i).scopeRefs - removedFrames s i } ∧
          (∀ p, t.scopes.get p =
            if hasPort (s.win i).ports p = true ∧ hasPort (record s).ports p = false then
              (s.scopes.get p).map (orphanedFrame i) else s.scopes.get p) ∧
          (∀ j, j ≠ i → t.win j = s.win j) ∧
          t = { s with windows := t.windows, scopes := t.scopes, mgmt := t.mgmt })

/-- RENEW: a window in HELD, TAPER or LAPSED is renewed with the budget given. ACTIVATE: a window in ARMING with onset
code 15 enters HELD. REVOKE: a window in ARMING, HELD, TAPER or LAPSED is retired; a grant decision that is due is
taken within the action (DEDUCED, log 22). Any other window gives WRONG_STATE. The closed frame's fields are 0 by the
model's choice (log 12). Scope references are 0 in DRAINING (log 20). A REVOKE orphans during a soft reset too
(DEDUCED, log 29). -/
def Obligations.RenewActivateAndRevoke : Prop :=
  (∀ s : State,
    (actionStands s 5 →
      (32 ≤ (record s).index.toNat → exec .renew s = .next (actionFails s .badIndex none)) ∧
      ∀ i, namesWindow s i →
        ((s.win i).phase = .held ∨ (s.win i).phase = .taper ∨ (s.win i).phase = .lapsed →
          exec .renew s = .next (withResult .done (some i) s.clock.time
            (renewed i (record s).budget (frameDone s)))) ∧
        (¬ ((s.win i).phase = .held ∨ (s.win i).phase = .taper ∨ (s.win i).phase = .lapsed) →
          exec .renew s = .next (actionFails s .wrongState (some i)))) ∧
    (actionStands s 6 →
      (32 ≤ (record s).index.toNat → exec .activate s = .next (actionFails s .badIndex none)) ∧
      ∀ i, namesWindow s i →
        ((s.win i).phase = .arming → (s.win i).onset = 15 →
          exec .activate s = .next (withResult .done (some i) s.clock.time
            (inPhase i .held (s.win i).hold (frameDone s)))) ∧
        (¬ ((s.win i).phase = .arming ∧ (s.win i).onset = 15) →
          exec .activate s = .next (actionFails s .wrongState (some i))))) ∧
  ∀ s : State, actionStands s 7 → engineMatches s →
    (32 ≤ (record s).index.toNat → exec .revoke s = .next (actionFails s .badIndex none)) ∧
    ∀ i, namesWindow s i →
      (changeable (s.win i) → exec .revoke s = .next (withResult .done (some i) s.clock.time
        (grantDecision (retired i (frameDone s))))) ∧
      (¬ changeable (s.win i) → exec .revoke s = .next (actionFails s .wrongState (some i)))

/-- UNWIND empties the stack, RESUME_PORT makes a STOPPED port ACTIVE, CLEAR_FLAGS clears the flags of its mask. R153:
ACK_FAULT and CLEAR_OVERFLOW. SCRUB_HOLD pauses a RUNNING engine, SCRUB_RESUME runs a PAUSED one, and then a grant
decision that is due is taken (log 22); each names the window in the progress record. The closed frame's fields are 0
by the model's choice (log 12). An UNWIND empties the stack during a soft reset too (DEDUCED, log 29). -/
def Obligations.PortFaultAndScrubActions : Prop :=
  (∀ (s : State) (p : Port), p = (record s).port →
    (actionStands s 8 → ∃ t, exec .unwind s = .next t ∧
      t.mgmt = { released s.mgmt false with lastResult := ⟨.done, none, s.clock.time⟩ } ∧
      t.scopes = s.scopes.set p [] ∧
      (∀ i, t.win i = { s.win i with
        scopeRefs := (s.win i).scopeRefs - (s.scopes.get p).countP (countsFor i) }) ∧
      t = { s with windows := t.windows, scopes := t.scopes, mgmt := t.mgmt }) ∧
    (actionStands s 9 →
      ((s.port p).state = .stopped → exec .resumePort s = .next (withResult .done none s.clock.time
        ((frameDone s).setPort p { s.port p with state := .active }))) ∧
      ((s.port p).state ≠ .stopped → exec .resumePort s = .next (actionFails s .wrongState none))) ∧
    (actionStands s 10 → exec .clearFlags s = .next (withResult .done none s.clock.time
      ((frameDone s).setPort p { s.port p with flags := (s.port p).flags &&& ~~~(record s).mask })))) ∧
  (∀ s : State,
    (actionStands s 11 →
      (7 < (record s).index.toNat → exec .ackFault s = .next (actionFails s .badIndex none)) ∧
      ∀ n : Fin 8, (record s).index.toNat = n.val →
        (s.faults.slots[n] = none → exec .ackFault s = .next (actionFails s .wrongState none)) ∧
        (s.faults.slots[n] ≠ none → exec .ackFault s = .next (withResult .done none s.clock.time
          { frameDone s with faults := { s.faults with slots := s.faults.slots.set n none } }))) ∧
    (actionStands s 12 → exec .clearOverflow s = .next (withResult .done none s.clock.time
      { frameDone s with faults := { s.faults with overflow := 0 } }))) ∧
  ∀ s : State,
    (actionStands s 13 →
      (s.scrub.state = .running → exec .scrubHold s = .next (withResult .done
        (s.scrub.progress.map (·.window)) s.clock.time
        { frameDone s with scrub := { s.scrub with state := .paused } })) ∧
      (s.scrub.state ≠ .running → exec .scrubHold s = .next (actionFails s .wrongState none))) ∧
    (actionStands s 14 →
      (s.scrub.state = .paused → exec .scrubResume s = .next (withResult .done
        (s.scrub.progress.map (·.window)) s.clock.time
        (grantDecision { frameDone s with scrub := { s.scrub with state := .running } }))) ∧
      (s.scrub.state ≠ .paused → exec .scrubResume s = .next (actionFails s .wrongState none)))

/-! ## Invariants and what no command changes -/

/-- No byte of the SRAM is changed but by the completion of a burst or at power-on. The moment is the model's choice
(log 7). -/
def Obligations.OnlyCompletionsAndPowerOnChangeTheSram : Prop :=
  ∀ (c : Instr) (s t : State), exec c s = .next t →
    c ∉ [Instr.portBurstComplete, .scrubBurstComplete, .fillComplete, .softResetEnd, .porstAssert, .powerOnReset] →
    ∀ key : Nat, t.sramByte key = s.sramByte key

/-- Every step keeps the SRAM content in its canonical form: the bytes written since power-on, their keys strictly
rising within the SRAM. The form is the model's choice (log 6). -/
def Obligations.EveryStepKeepsTheSramCanonical : Prop :=
  ∀ s t : State, sramCanonical s → step s = .next t → sramCanonical t

/-- Every step keeps the tickets of every port accounted for: free, queued, or with an unread reply. -/
def Obligations.EveryStepKeepsTheTicketsCounted : Prop :=
  ∀ s t : State, ticketsCounted s → step s = .next t → ticketsCounted t

/-- Every step keeps the lists within their places, the port states in line with the reset lines, the oldest entries
unsettled and the Scrub Engine in line with its progress record. -/
def Obligations.EveryStepKeepsTheLists : Prop :=
  ∀ s t : State, withinPlaces s ∧ linesMatch s ∧ oldestUnsettled s ∧ engineMatches s → step s = .next t →
    withinPlaces t ∧ linesMatch t ∧ oldestUnsettled t ∧ engineMatches t

/-- Every step keeps the windows formed, the GRANTs of one port apart in their port words (R24) and a window with the
scrub flag apart from every other in its SRAM words (R25). -/
def Obligations.EveryStepKeepsTheWindowsApart : Prop :=
  ∀ s t : State, Invariants s → step s = .next t → windowsFormed t ∧ grantsApart t ∧ scrubsApart t

/-- Every step keeps the in-flight counts equal to the entries bound (R37), and the burst under way that of its port's
oldest entry. -/
def Obligations.EveryStepKeepsTheBindings : Prop :=
  ∀ s t : State, Invariants s → step s = .next t → bindingsCounted t ∧ burstMatches t

/-- Every step keeps the scope references equal to the live frames (R109), and the scrub list and progress record in
line with the windows in SCRUB_WAIT and SCRUBBING (R136). -/
def Obligations.EveryStepKeepsScopesAndScrubs : Prop :=
  ∀ s t : State, Invariants s → step s = .next t → scopesCounted t ∧ scrubMatches t

/-- Every step keeps the expiry list: an entry for each window in a phase of finite duration, with the window's
deadline, in the order of remaining time (R75). -/
def Obligations.EveryStepKeepsTheExpiryList : Prop :=
  ∀ s t : State, Invariants s → step s = .next t → expiryMatches t

/-- Every step keeps queued requests apart by port and tag (R94), and fault slots apart by their key (R150). -/
def Obligations.EveryStepKeepsTheKeysApart : Prop :=
  ∀ s t : State, Invariants s → step s = .next t → requestsApart t ∧ faultsApart t

/-- Every step leaves no grant decision due. That the decision falls within the event is DEDUCED (log 22). -/
def Obligations.EveryStepLeavesNoGrantDue : Prop :=
  ∀ s t : State, noGrantDue s → step s = .next t → noGrantDue t

/-- The invariants hold after reset. -/
def Obligations.ResetHasTheInvariants : Prop :=
  sramCanonical State.reset ∧ Invariants State.reset ∧ noGrantDue State.reset
end

