-- ==== Sys2Proof/Laws/State.lean ====
section
/-! SUPPORT. One lemma for each field under each update of the state, so that no proof unfolds a record
update. -/

namespace Sys2Proof.Machine

/-! ## Values for each port -/

@[simp] theorem PerPort.get_set_self {α : Type} (x : PerPort α) (p : Port) (v : α) : (x.set p v).get p = v := by
  cases p <;> rfl

theorem PerPort.get_set_ne {α : Type} (x : PerPort α) {p q : Port} (v : α) (h : q ≠ p) :
    (x.set p v).get q = x.get q := by
  cases p <;> cases q <;> first | rfl | exact absurd rfl h

@[simp] theorem PerPort.set_set {α : Type} (x : PerPort α) (p : Port) (v w : α) : (x.set p v).set p w = x.set p w := by
  cases p <;> rfl

@[simp] theorem PerPort.set_get {α : Type} (x : PerPort α) (p : Port) : x.set p (x.get p) = x := by
  cases p <;> rfl

@[simp] theorem PerPort.get_all {α : Type} (v : α) (p : Port) : (PerPort.all v).get p = v := by
  cases p <;> rfl

/-! ## A port replaced -/

@[simp] theorem State.port_setPort_self (s : State) (p : Port) (x : Piu) : (s.setPort p x).port p = x :=
  PerPort.get_set_self s.piu p x

theorem State.port_setPort_ne (s : State) {p q : Port} (x : Piu) (h : q ≠ p) : (s.setPort p x).port q = s.port q :=
  PerPort.get_set_ne s.piu x h

@[simp] theorem State.setPort_setPort (s : State) (p : Port) (x y : Piu) :
    (s.setPort p x).setPort p y = s.setPort p y := by
  simp [State.setPort]

@[simp] theorem State.win_setPort (s : State) (p : Port) (x : Piu) (i : WinIdx) : (s.setPort p x).win i = s.win i := rfl

@[simp] theorem State.setPort_windows (s : State) (p : Port) (x : Piu) : (s.setPort p x).windows = s.windows := rfl
@[simp] theorem State.setPort_map (s : State) (p : Port) (x : Piu) : (s.setPort p x).map = s.map := rfl
@[simp] theorem State.setPort_clock (s : State) (p : Port) (x : Piu) : (s.setPort p x).clock = s.clock := rfl
@[simp] theorem State.setPort_requests (s : State) (p : Port) (x : Piu) : (s.setPort p x).requests = s.requests := rfl
@[simp] theorem State.setPort_replies (s : State) (p : Port) (x : Piu) : (s.setPort p x).replies = s.replies := rfl
@[simp] theorem State.setPort_tickets (s : State) (p : Port) (x : Piu) : (s.setPort p x).tickets = s.tickets := rfl
@[simp] theorem State.setPort_scopes (s : State) (p : Port) (x : Piu) : (s.setPort p x).scopes = s.scopes := rfl
@[simp] theorem State.setPort_seq (s : State) (p : Port) (x : Piu) : (s.setPort p x).seq = s.seq := rfl
@[simp] theorem State.setPort_scrub (s : State) (p : Port) (x : Piu) : (s.setPort p x).scrub = s.scrub := rfl
@[simp] theorem State.setPort_faults (s : State) (p : Port) (x : Piu) : (s.setPort p x).faults = s.faults := rfl
@[simp] theorem State.setPort_attn (s : State) (p : Port) (x : Piu) : (s.setPort p x).attn = s.attn := rfl
@[simp] theorem State.setPort_mgmt (s : State) (p : Port) (x : Piu) : (s.setPort p x).mgmt = s.mgmt := rfl
@[simp] theorem State.setPort_sram (s : State) (p : Port) (x : Piu) : (s.setPort p x).sram = s.sram := rfl
@[simp] theorem State.setPort_powerOns (s : State) (p : Port) (x : Piu) : (s.setPort p x).powerOns = s.powerOns := rfl
@[simp] theorem State.setPort_softReset (s : State) (p : Port) (x : Piu) : (s.setPort p x).softReset = s.softReset := rfl
@[simp] theorem State.setPort_porst (s : State) (p : Port) (x : Piu) : (s.setPort p x).porst = s.porst := rfl
@[simp] theorem State.setPort_pending (s : State) (p : Port) (x : Piu) : (s.setPort p x).pending = s.pending := rfl

/-! ## A window record replaced -/

@[simp] theorem State.win_setWin_self (s : State) (i : WinIdx) (w : Window) : (s.setWin i w).win i = w := by
  simp [State.setWin, State.win]

theorem State.win_setWin_ne (s : State) {i j : WinIdx} (w : Window) (h : j ≠ i) : (s.setWin i w).win j = s.win j := by
  have : i.val ≠ j.val := fun e => h (Fin.ext e.symm)
  simp [State.setWin, State.win, this]

@[simp] theorem State.port_setWin (s : State) (i : WinIdx) (w : Window) (p : Port) : (s.setWin i w).port p = s.port p := rfl

@[simp] theorem State.setWin_piu (s : State) (i : WinIdx) (w : Window) : (s.setWin i w).piu = s.piu := rfl
@[simp] theorem State.setWin_map (s : State) (i : WinIdx) (w : Window) : (s.setWin i w).map = s.map := rfl
@[simp] theorem State.setWin_clock (s : State) (i : WinIdx) (w : Window) : (s.setWin i w).clock = s.clock := rfl
@[simp] theorem State.setWin_requests (s : State) (i : WinIdx) (w : Window) : (s.setWin i w).requests = s.requests := rfl
@[simp] theorem State.setWin_replies (s : State) (i : WinIdx) (w : Window) : (s.setWin i w).replies = s.replies := rfl
@[simp] theorem State.setWin_tickets (s : State) (i : WinIdx) (w : Window) : (s.setWin i w).tickets = s.tickets := rfl
@[simp] theorem State.setWin_scopes (s : State) (i : WinIdx) (w : Window) : (s.setWin i w).scopes = s.scopes := rfl
@[simp] theorem State.setWin_seq (s : State) (i : WinIdx) (w : Window) : (s.setWin i w).seq = s.seq := rfl
@[simp] theorem State.setWin_scrub (s : State) (i : WinIdx) (w : Window) : (s.setWin i w).scrub = s.scrub := rfl
@[simp] theorem State.setWin_faults (s : State) (i : WinIdx) (w : Window) : (s.setWin i w).faults = s.faults := rfl
@[simp] theorem State.setWin_attn (s : State) (i : WinIdx) (w : Window) : (s.setWin i w).attn = s.attn := rfl
@[simp] theorem State.setWin_mgmt (s : State) (i : WinIdx) (w : Window) : (s.setWin i w).mgmt = s.mgmt := rfl
@[simp] theorem State.setWin_sram (s : State) (i : WinIdx) (w : Window) : (s.setWin i w).sram = s.sram := rfl
@[simp] theorem State.setWin_powerOns (s : State) (i : WinIdx) (w : Window) : (s.setWin i w).powerOns = s.powerOns := rfl
@[simp] theorem State.setWin_softReset (s : State) (i : WinIdx) (w : Window) : (s.setWin i w).softReset = s.softReset := rfl
@[simp] theorem State.setWin_porst (s : State) (i : WinIdx) (w : Window) : (s.setWin i w).porst = s.porst := rfl
@[simp] theorem State.setWin_pending (s : State) (i : WinIdx) (w : Window) : (s.setWin i w).pending = s.pending := rfl

/-! ## A cause raised -/

@[simp] theorem State.raise_attn (s : State) (c : BitVec 5) :
    (s.raise c).attn = { s.attn with pending := s.attn.pending ||| c } := rfl
@[simp] theorem State.port_raise (s : State) (c : BitVec 5) (p : Port) : (s.raise c).port p = s.port p := rfl
@[simp] theorem State.win_raise (s : State) (c : BitVec 5) (i : WinIdx) : (s.raise c).win i = s.win i := rfl

@[simp] theorem State.raise_piu (s : State) (c : BitVec 5) : (s.raise c).piu = s.piu := rfl
@[simp] theorem State.raise_windows (s : State) (c : BitVec 5) : (s.raise c).windows = s.windows := rfl
@[simp] theorem State.raise_map (s : State) (c : BitVec 5) : (s.raise c).map = s.map := rfl
@[simp] theorem State.raise_clock (s : State) (c : BitVec 5) : (s.raise c).clock = s.clock := rfl
@[simp] theorem State.raise_requests (s : State) (c : BitVec 5) : (s.raise c).requests = s.requests := rfl
@[simp] theorem State.raise_replies (s : State) (c : BitVec 5) : (s.raise c).replies = s.replies := rfl
@[simp] theorem State.raise_tickets (s : State) (c : BitVec 5) : (s.raise c).tickets = s.tickets := rfl
@[simp] theorem State.raise_scopes (s : State) (c : BitVec 5) : (s.raise c).scopes = s.scopes := rfl
@[simp] theorem State.raise_seq (s : State) (c : BitVec 5) : (s.raise c).seq = s.seq := rfl
@[simp] theorem State.raise_scrub (s : State) (c : BitVec 5) : (s.raise c).scrub = s.scrub := rfl
@[simp] theorem State.raise_faults (s : State) (c : BitVec 5) : (s.raise c).faults = s.faults := rfl
@[simp] theorem State.raise_mgmt (s : State) (c : BitVec 5) : (s.raise c).mgmt = s.mgmt := rfl
@[simp] theorem State.raise_sram (s : State) (c : BitVec 5) : (s.raise c).sram = s.sram := rfl
@[simp] theorem State.raise_powerOns (s : State) (c : BitVec 5) : (s.raise c).powerOns = s.powerOns := rfl
@[simp] theorem State.raise_softReset (s : State) (c : BitVec 5) : (s.raise c).softReset = s.softReset := rfl
@[simp] theorem State.raise_porst (s : State) (c : BitVec 5) : (s.raise c).porst = s.porst := rfl
@[simp] theorem State.raise_pending (s : State) (c : BitVec 5) : (s.raise c).pending = s.pending := rfl

end Sys2Proof.Machine
end

