-- ==== Sys2Proof/Laws/Ops.lean ====
section
/-! SUPPORT. What the shared operations leave as it was: `LifeKept s t` says that from `s` to `t` only port
entries and flags, windows, lease clock, scope stacks, sequencer, scrub engine, fault recorder and attention
may have changed, and that no port went in or out of reset. -/

namespace Sys2Proof.Machine

/-- Requests, map, management port, SRAM, resets and the queue stand as they were. -/
structure LifeKept (s t : State) : Prop where
  map : t.map = s.map
  requests : t.requests = s.requests
  replies : t.replies = s.replies
  tickets : t.tickets = s.tickets
  mgmt : t.mgmt = s.mgmt
  sram : t.sram = s.sram
  powerOns : t.powerOns = s.powerOns
  softReset : t.softReset = s.softReset
  porst : t.porst = s.porst
  pending : t.pending = s.pending
  lines : ∀ p, (t.port p).line = (s.port p).line
  inReset : ∀ p, (t.port p).state = .inReset ↔ (s.port p).state = .inReset

theorem LifeKept.refl (s : State) : LifeKept s s :=
  ⟨rfl, rfl, rfl, rfl, rfl, rfl, rfl, rfl, rfl, rfl, fun _ => rfl, fun _ => Iff.rfl⟩

theorem LifeKept.trans {s t u : State} (h : LifeKept s t) (k : LifeKept t u) : LifeKept s u :=
  ⟨k.map.trans h.map, k.requests.trans h.requests, k.replies.trans h.replies, k.tickets.trans h.tickets,
    k.mgmt.trans h.mgmt, k.sram.trans h.sram, k.powerOns.trans h.powerOns, k.softReset.trans h.softReset,
    k.porst.trans h.porst, k.pending.trans h.pending, fun p => (k.lines p).trans (h.lines p),
    fun p => (k.inReset p).trans (h.inReset p)⟩

/-- The second part first: its start is read off the end. -/
theorem LifeKept.before {s t u : State} (k : LifeKept t u) (h : LifeKept s t) : LifeKept s u := h.trans k

/-- An update that touches no port and none of the fields named. -/
theorem LifeKept.same {s t : State} (piu : t.piu = s.piu := by rfl) (map : t.map = s.map := by rfl)
    (requests : t.requests = s.requests := by rfl) (replies : t.replies = s.replies := by rfl)
    (tickets : t.tickets = s.tickets := by rfl) (mgmt : t.mgmt = s.mgmt := by rfl)
    (sram : t.sram = s.sram := by rfl) (powerOns : t.powerOns = s.powerOns := by rfl)
    (softReset : t.softReset = s.softReset := by rfl) (porst : t.porst = s.porst := by rfl)
    (pending : t.pending = s.pending := by rfl) : LifeKept s t :=
  ⟨map, requests, replies, tickets, mgmt, sram, powerOns, softReset, porst, pending,
    fun p => by rw [State.port, piu]; rfl, fun p => by rw [State.port, piu]; rfl⟩

theorem lifeKept_ite {c : Prop} [Decidable c] {s t u : State} (h : LifeKept s t) (k : LifeKept s u) :
    LifeKept s (if c then t else u) := by
  split
  · exact h
  · exact k

/-! ## Single updates -/

theorem lifeKept_setWin (s : State) (i : WinIdx) (w : Window) : LifeKept s (s.setWin i w) := LifeKept.same

theorem lifeKept_raise (s : State) (c : BitVec 5) : LifeKept s (s.raise c) := LifeKept.same

/-- A port replaced by one with the same line and the same relation to reset. -/
theorem lifeKept_setPort (s : State) (p : Port) (x : Piu) (hl : x.line = (s.port p).line)
    (hs : x.state = .inReset ↔ (s.port p).state = .inReset) : LifeKept s (s.setPort p x) := by
  refine ⟨rfl, rfl, rfl, rfl, rfl, rfl, rfl, rfl, rfl, rfl, fun q => ?_, fun q => ?_⟩ <;>
    by_cases h : q = p
  · subst h; simpa using hl
  · rw [State.port_setPort_ne s x h]
  · subst h; simpa using hs
  · rw [State.port_setPort_ne s x h]

/-- The same, where the update touches neither line nor state. -/
theorem lifeKept_setPort' (s : State) (p : Port) (x : Piu) (hl : x.line = (s.port p).line)
    (hs : x.state = (s.port p).state) : LifeKept s (s.setPort p x) :=
  lifeKept_setPort s p x hl (by rw [hs])

/-! ## Windows, lease clock, scope stacks -/

theorem lifeKept_removeExpiry (i : WinIdx) (s : State) : LifeKept s (removeExpiry i s) := LifeKept.same

theorem lifeKept_enterPhase (i : WinIdx) (ph : Phase) (c : Code) (s : State) : LifeKept s (enterPhase i ph c s) := by
  simp only [enterPhase]
  split <;> exact LifeKept.same

theorem lifeKept_enterHeld (i : WinIdx) (s : State) : LifeKept s (enterHeld i s) := lifeKept_enterPhase _ _ _ _

theorem lifeKept_renewWindow (i : WinIdx) (b : Code) (s : State) : LifeKept s (renewWindow i b s) :=
  (lifeKept_enterHeld i s).trans (lifeKept_setWin _ _ _)

theorem lifeKept_orphanPort (i : WinIdx) (p : Port) (s : State) : LifeKept s (orphanPort i p s) := LifeKept.same

theorem lifeKept_orphanAll (i : WinIdx) (s : State) : LifeKept s (orphanAll i s) := LifeKept.same

theorem lifeKept_lowerRef (i : WinIdx) (s : State) : LifeKept s (lowerRef i s) := LifeKept.same

theorem lifeKept_lowerRefs (fs : List Frame) (s : State) : LifeKept s (lowerRefs fs s) := by
  induction fs generalizing s with
  | nil => exact LifeKept.same
  | cons f fs ih => exact (lifeKept_ite LifeKept.same (lifeKept_lowerRef f.window s)).trans (ih _)

theorem lifeKept_emptyStack (p : Port) (s : State) : LifeKept s (emptyStack p s) :=
  LifeKept.before (t := lowerRefs (s.scopes.get p) s) LifeKept.same (lifeKept_lowerRefs _ s)

/-! ## Retirement -/

theorem lifeKept_scrubTake (s : State) : LifeKept s (scrubTake s) := by
  unfold scrubTake
  split <;> exact LifeKept.same

theorem lifeKept_scrubAppend (i : WinIdx) (s : State) : LifeKept s (scrubAppend i s) :=
  lifeKept_ite ((lifeKept_scrubTake _).before LifeKept.same) LifeKept.same

theorem lifeKept_endDrain (i : WinIdx) (s : State) : LifeKept s (endDrain i s) :=
  lifeKept_ite ((lifeKept_scrubAppend i _).before (lifeKept_setWin s i _)) (lifeKept_setWin s i _)

theorem lifeKept_endDrainIfDone (i : WinIdx) (s : State) : LifeKept s (endDrainIfDone i s) :=
  lifeKept_ite (lifeKept_endDrain i s) LifeKept.same

theorem lifeKept_enterDraining (i : WinIdx) (s : State) : LifeKept s (enterDraining i s) :=
  (lifeKept_endDrainIfDone i _).before LifeKept.same

theorem lifeKept_releaseBinding (i : WinIdx) (s : State) : LifeKept s (releaseBinding i s) :=
  (lifeKept_endDrainIfDone i _).before (lifeKept_setWin s i _)

theorem lifeKept_releaseBound (b : Option WinIdx) (s : State) : LifeKept s (releaseBound b s) := by
  cases b with
  | none => exact LifeKept.same
  | some i => exact lifeKept_releaseBinding i s

theorem lifeKept_enterLapsed (i : WinIdx) (s : State) : LifeKept s (enterLapsed i s) :=
  lifeKept_ite ((lifeKept_enterDraining i _).before LifeKept.same) LifeKept.same

theorem lifeKept_releaseEntries (es : List Entry) (s : State) : LifeKept s (releaseEntries es s) := by
  induction es generalizing s with
  | nil => exact LifeKept.same
  | cons e es ih => exact (lifeKept_releaseBound e.binding s).trans (ih _)

/-! ## Pending entries -/

theorem lifeKept_depart (p : Port) (s : State) : LifeKept s (depart p s) :=
  lifeKept_setPort' s p _ rfl rfl

theorem lifeKept_setEntry (p : Port) (place : Nat) (e : Entry) (s : State) : LifeKept s (setEntry p place e s) :=
  lifeKept_setPort' s p _ rfl rfl

theorem lifeKept_enterPending (p : Port) (e : Entry) (s : State) : LifeKept s (enterPending p e s) :=
  (lifeKept_depart p _).before (lifeKept_setPort' s p _ rfl rfl)

/-! ## Grants -/

theorem lifeKept_startScrubBurst (s : State) : LifeKept s (startScrubBurst s) := by
  unfold startScrubBurst
  split <;> exact LifeKept.same

theorem lifeKept_startPortBurst (p : Port) (s : State) : LifeKept s (startPortBurst p s) := by
  unfold startPortBurst
  split
  · exact LifeKept.same
  · refine LifeKept.trans (t := { s with seq := ⟨p, min 15 (s.seq.shareCount + 1), some (portBurst p _)⟩ })
      LifeKept.same (lifeKept_setPort' _ p _ ?_ ?_) <;> rfl

theorem lifeKept_grantDecision (s : State) : LifeKept s (grantDecision s) := by
  unfold grantDecision
  refine lifeKept_ite (lifeKept_ite (lifeKept_startScrubBurst s) ?_) LifeKept.same
  split
  · exact lifeKept_startPortBurst _ s
  · exact LifeKept.same

/-! ## Fault events -/

theorem lifeKept_stopOnFault (p : Port) (s : State) : LifeKept s (stopOnFault p s) := by
  unfold stopOnFault
  split
  · rename_i h
    simp only [Bool.and_eq_true, beq_iff_eq] at h
    have ha : (s.port p).state = .active := h.2
    exact (lifeKept_raise _ _).before (lifeKept_setPort s p _ rfl (by simp [ha]))
  · exact LifeKept.same

theorem lifeKept_recordFault (r : FaultRecord) (s : State) : LifeKept s (recordFault r s) := by
  unfold recordFault
  exact lifeKept_ite LifeKept.same LifeKept.same

theorem lifeKept_faultEvent (p : Port) (reason : Reason) (kind : FaultKind) (a : PortAddr) (w : Option WinIdx)
    (s : State) : LifeKept s (faultEvent p reason kind a w s) :=
  by
    refine (lifeKept_stopOnFault p _).before ((lifeKept_setPort' _ p _ ?_ ?_).before (lifeKept_recordFault _ s)) <;> rfl

/-! ## Acceptance of data accesses, deadlines, ticks -/

theorem lifeKept_bindWindow (b : Option WinIdx) (s : State) : LifeKept s (bindWindow b s) := by
  cases b <;> exact LifeKept.same

theorem lifeKept_applyVerdict (p : Port) (acc : Access) (v : Verdict) (s : State) : LifeKept s (applyVerdict p acc v s) := by
  cases v with
  | admitted addrs lanes trimmed bound =>
    refine (lifeKept_setPort' _ p _ ?_ ?_).before (lifeKept_bindWindow bound s) <;> split <;> rfl
  | allAborted => exact lifeKept_setPort' s p _ rfl rfl
  | refused reason window => exact lifeKept_faultEvent _ _ _ _ _ _

theorem lifeKept_acceptData (p : Port) (acc : Access) (s : State) : LifeKept s (acceptData p acc s) :=
  (lifeKept_enterPending p _ _).before (lifeKept_applyVerdict p acc _ s)

theorem lifeKept_expiryOf (i : WinIdx) (s : State) : LifeKept s (expiryOf i s) := by
  simp only [expiryOf]
  split
  · exact lifeKept_enterHeld i s
  · exact lifeKept_ite (lifeKept_enterPhase _ _ _ s) (lifeKept_enterLapsed i s)
  · exact lifeKept_enterLapsed i s
  all_goals exact LifeKept.same

theorem lifeKept_expireHead (e : Expiry) (s : State) : LifeKept s (expireHead e s) :=
  (lifeKept_expiryOf e.window _).before (lifeKept_removeExpiry e.window s)

theorem lifeKept_expireReached (n : Nat) (s : State) : LifeKept s (expireReached n s) := by
  induction n generalizing s with
  | zero => exact LifeKept.same
  | succ n ih =>
    unfold expireReached
    split
    · exact LifeKept.same
    · exact lifeKept_ite ((lifeKept_expireHead _ s).trans (ih _)) LifeKept.same

theorem lifeKept_leaseTick (s : State) : LifeKept s (leaseTick s) :=
  (lifeKept_expireReached _ (advanceTime s)).before LifeKept.same

theorem lifeKept_expiryEvent (ph : Phase) (i : WinIdx) (s : State) : LifeKept s (expiryEvent ph i s) := by
  unfold expiryEvent
  refine lifeKept_ite LifeKept.same (lifeKept_ite ?_ (lifeKept_ite ?_ LifeKept.same))
  · split
    · exact LifeKept.same
    · exact (lifeKept_expireHead _ s).trans (lifeKept_grantDecision _)
  · exact (lifeKept_leaseTick s).trans (lifeKept_grantDecision _)

theorem lifeKept_deadlineOutcome (p : Port) (place : Nat) (e : Entry) (s : State) :
    LifeKept s (deadlineOutcome p place e s) := by
  simp only [deadlineOutcome]
  split
  · exact ((lifeKept_faultEvent _ _ _ _ _ _).before (lifeKept_releaseBound _ _)).before (lifeKept_setEntry _ _ _ s)
  · exact (lifeKept_faultEvent _ _ _ _ _ _).before (lifeKept_setEntry _ _ _ s)
  · exact (lifeKept_faultEvent _ _ _ _ _ _).before (lifeKept_setEntry _ _ _ s)
  · exact lifeKept_setEntry _ _ _ s
  · exact LifeKept.same

theorem lifeKept_deadlineSettled (p : Port) (place : Nat) (e : Entry) (s : State) :
    LifeKept s (deadlineSettled p place e s) :=
  (lifeKept_deadlineOutcome p place e _).before (lifeKept_setPort' s p _ rfl rfl)

theorem lifeKept_dataDeadline (p : Port) (place : Nat) (e : Entry) (s : State) : LifeKept s (dataDeadline p place e s) :=
  (lifeKept_depart p _).before (lifeKept_deadlineSettled p place e s)

theorem lifeKept_deadlineIf (test : Nat → Bool) (p : Port) (place : Nat) (s : State) :
    LifeKept s (deadlineIf test p place s) := by
  unfold deadlineIf
  split
  · exact lifeKept_dataDeadline _ _ _ s
  · exact LifeKept.same

theorem lifeKept_countPeriod (s : State) : LifeKept s (countPeriod s) :=
  ⟨rfl, rfl, rfl, rfl, rfl, rfl, rfl, rfl, rfl, rfl, fun p => by cases p <;> rfl, fun p => by cases p <;> exact Iff.rfl⟩

theorem lifeKept_runPart (x : State × Bool) (part : LclkPart) : LifeKept x.1 (runPart x part).1 := by
  cases part with
  | tick =>
    simp only [runPart]
    split
    · exact lifeKept_leaseTick x.1
    · exact LifeKept.same
  | deadline p place => exact lifeKept_deadlineIf _ p place x.1
  | grant => exact lifeKept_grantDecision x.1

theorem lifeKept_runParts (parts : List LclkPart) (x : State × Bool) : LifeKept x.1 (parts.foldl runPart x).1 := by
  induction parts generalizing x with
  | nil => exact LifeKept.same
  | cons part parts ih => exact (lifeKept_runPart x part).trans (ih _)

theorem lifeKept_lclkPeriod (order : List LclkPart) (s : State) : LifeKept s (lclkPeriod order s) :=
  ((lifeKept_countPeriod s).trans (lifeKept_runParts (order ++ wholePeriod) (countPeriod s, tickDue s))).trans
    (lifeKept_grantDecision _)

/-! ## Completions and aborts -/

theorem lifeKept_settleBurst (p : Port) (data : List Word) (s : State) : LifeKept s (settleBurst p data s) := by
  unfold settleBurst
  split
  · exact LifeKept.same
  · exact (lifeKept_depart p _).before (lifeKept_setPort' s p _ rfl rfl)

theorem lifeKept_fillComplete (i : WinIdx) (s : State) : LifeKept s (fillComplete i s) := by
  simp only [fillComplete]
  split
  · exact LifeKept.same
  · exact (lifeKept_scrubTake _).before LifeKept.same

theorem lifeKept_countGroup (s : State) : LifeKept s (countGroup s) := by
  unfold countGroup
  split
  · exact LifeKept.same
  · exact lifeKept_ite (lifeKept_fillComplete _ s) LifeKept.same

theorem lifeKept_abortPort (s : State) (p : Port) : LifeKept s (abortPort s p) :=
  (lifeKept_releaseEntries _ _).before (lifeKept_setPort' s p _ rfl rfl)

theorem lifeKept_abortAll (s : State) : LifeKept s (abortAll s) :=
  (((lifeKept_abortPort s .a).trans (lifeKept_abortPort _ .b)).trans (lifeKept_abortPort _ .c)).trans
    (lifeKept_abortPort _ .d)

end Sys2Proof.Machine
end

