-- ==== Sys2Proof/Laws/Events.lean ====
section
/-! SUPPORT. When an operation that runs inside every event changes nothing: the departure of settled
responses, the grant decision, and the end of a frame of another kind. -/

namespace Sys2Proof.Machine
open Sys2Proof.Safety

/-! ## Ports put back -/

@[simp] theorem State.setPort_port (s : State) (p : Port) : s.setPort p (s.port p) = s := by
  simp only [State.setPort, State.port, PerPort.set_get]

/-- A port replaced by itself. -/
theorem State.setPort_eq_self (s : State) (p : Port) (x : Piu) (h : x = s.port p) : s.setPort p x = s := by
  rw [h, State.setPort_port]

@[simp] theorem State.setWin_win (s : State) (i : WinIdx) : s.setWin i (s.win i) = s := by
  simp [State.setWin, State.win]

@[simp] theorem State.setWin_setWin (s : State) (i : WinIdx) (v w : Window) :
    (s.setWin i v).setWin i w = s.setWin i w := by
  simp [State.setWin]

theorem State.setPort_setWin (s : State) (i : WinIdx) (w : Window) (p : Port) (x : Piu) :
    (s.setPort p x).setWin i w = (s.setWin i w).setPort p x := rfl

/-! ## Departure -/

/-- Nothing leaves a list whose oldest entry is not SETTLED. -/
theorem leaving_of_unsettled {es : List Entry} (h : ∀ e l, es = e :: l → e.progress ≠ .settled) :
    leaving es = ([], es) := by
  cases es with
  | nil => rfl
  | cons e l => simp [leaving, h e l rfl]

/-- A port whose oldest entry is not SETTLED sends nothing. -/
theorem depart_of_unsettled {p : Port} {s : State}
    (h : ∀ e es, (s.port p).pending = e :: es → e.progress ≠ .settled) : depart p s = s := by
  simp only [depart, leaving_of_unsettled h, List.append_nil]
  exact State.setPort_port s p

/-- The only entry, once SETTLED, leaves with its response. -/
theorem leaving_singleton {e : Entry} (h : e.progress = .settled) : leaving [e] = (e.response.toList, []) := by
  simp [leaving, h]

/-- After a departure the oldest entry is not SETTLED. -/
theorem leaving_unsettled (es : List Entry) : ∀ e l, (leaving es).2 = e :: l → e.progress ≠ .settled := by
  induction es with
  | nil => intro e l h; cases h
  | cons x xs ih =>
    intro e l h
    by_cases hx : x.progress = .settled
    · simp only [leaving, hx, beq_self_eq_true, if_true] at h; exact ih e l h
    · simp only [leaving, beq_iff_eq, hx, if_false] at h; cases h; exact hx

/-- What stays is no longer than what stood. -/
theorem leaving_length (es : List Entry) : (leaving es).2.length ≤ es.length := by
  induction es with
  | nil => exact Nat.le_refl 0
  | cons x xs ih =>
    by_cases hx : x.progress = .settled
    · simp only [leaving, hx, beq_self_eq_true, if_true, List.length_cons]; omega
    · simp [leaving, hx]

/-! ## The grant decision -/

theorem nextPort_of_noCandidate {s : State} (h : ∀ p, portCandidate s p = false) : nextPort s = none := by
  simp [nextPort, h]

/-- Where no grant decision is due, taking it changes nothing (R124). -/
theorem grantDecision_of_noGrantDue {s : State} (h : noGrantDue s) : grantDecision s = s := by
  unfold grantDecision
  rcases h with h | h | h | ⟨hs, hp⟩
  · have : mayGrant s = false := by
      simp only [mayGrant]
      cases hb : s.seq.burst with
      | none => rw [hb] at h; cases h
      | some b => rfl
    rw [this]; rfl
  · simp [mayGrant, h]
  · simp [mayGrant, h]
  · simp [scrubFirst, hs, nextPort_of_noCandidate hp]

/-- Where no grant is possible, the decision changes nothing. -/
theorem grantDecision_of_mayGrant {s : State} (h : mayGrant s = false) : grantDecision s = s := by
  simp [grantDecision, h]

theorem mayGrant_of_burst {s : State} (h : s.seq.burst.isSome = true) : mayGrant s = false := by
  simp only [mayGrant]
  cases hb : s.seq.burst with
  | none => rw [hb] at h; cases h
  | some b => rfl

/-- No decision is due, as one Bool. -/
theorem noGrantDue_iff (s : State) : noGrantDue s ↔
    (mayGrant s = true → scrubCandidate s = false ∧ ∀ p, portCandidate s p = false) := by
  unfold noGrantDue noCandidate mayGrant
  cases s.seq.burst <;> cases s.softReset <;> cases s.porst <;> simp

/-! ## Ends of frames -/

/-- A row whose frame does not stand changes nothing (log 18). -/
theorem frameUpdate_of_end {kind : FrameEnd} {update : Payload → State → State} {s : State}
    (h : frameEnd s.mgmt ≠ kind) : frameUpdate kind update s = s := by
  simp [frameUpdate, h]

/-- A row whose frame stands applies its update. -/
theorem frameUpdate_of_eq {kind : FrameEnd} {update : Payload → State → State} {s : State}
    (h : frameEnd s.mgmt = kind) : frameUpdate kind update s = update s.mgmt.incoming (closeFrame false s) := by
  simp [frameUpdate, h]

/-- The end of an exact frame. -/
theorem frameEnd_exact {s : State} {sel : BitVec 8} {len : Nat} {r : Register} (h : exactFrame s sel len)
    (hr : registerOf sel = some r) (hl : r.length = len) : frameEnd s.mgmt = exactEnd r s.mgmt.incoming := by
  obtain ⟨h1, h2, h3⟩ := h
  simp [frameEnd, h1, h2, hr, h3, hl]

/-- The end of an exact ACTION frame. -/
theorem frameEnd_action {s : State} {code : BitVec 5} (h : actionStands s code) :
    frameEnd s.mgmt = .action code := by
  rw [frameEnd_exact h.1 (r := .action) (by decide) (by decide)]
  simp [exactEnd, h.2]

/-- An action taken: its result record is kept (R171). -/
theorem actionFrame_of_stands {s : State} {code : BitVec 5} {act : ActionRecord → State → ActionOut}
    (h : actionStands s code) : actionFrame code act s =
      setResult (act (record s) (frameDone s)).2.1 (act (record s) (frameDone s)).2.2 s.clock.time
        (act (record s) (frameDone s)).1 := by
  have hf : closeFrame false s = frameDone s := rfl
  simp only [actionFrame, frameUpdate_of_eq (frameEnd_action h), hf]
  rfl

/-- An action taken, by what it leaves. -/
theorem actionFrame_of_out {s t : State} {code : BitVec 5} {act : ActionRecord → State → ActionOut}
    {result : ResultCode} {window : Option WinIdx} (h : actionStands s code)
    (e : act (record s) (frameDone s) = (t, result, window)) :
    actionFrame code act s = withResult result window s.clock.time t := by
  rw [actionFrame_of_stands h, e]; rfl

/-- An index operand of 32 to 63 names no window. -/
theorem onWindow_bad {r : ActionRecord} {act : WinIdx → State → ActionOut} {s : State}
    (h : 32 ≤ r.index.toNat) : onWindow r act s = (s, .badIndex, none) := by
  simp only [onWindow, windowOfIndex, dif_neg (Nat.not_lt.mpr h)]; rfl

/-- An index operand of 0 to 31 names its window. -/
theorem windowOfIndex_of_eq {x : BitVec 6} {i : WinIdx} (h : x.toNat = i.val) : windowOfIndex x = some i := by
  have hi := i.isLt
  simp only [windowOfIndex, dif_pos (show x.toNat < 32 by omega)]
  exact congrArg some (Fin.ext h)

/-- An index above 31 names no window. -/
theorem windowOfIndex_of_le {x : BitVec 6} (h : 32 ≤ x.toNat) : windowOfIndex x = none := by
  simp only [windowOfIndex, dif_neg (Nat.not_lt.mpr h)]

theorem onWindow_of_eq {r : ActionRecord} {act : WinIdx → State → ActionOut} {s : State} {i : WinIdx}
    (h : r.index.toNat = i.val) : onWindow r act s = act i s := by
  simp only [onWindow, windowOfIndex_of_eq h]

end Sys2Proof.Machine
end

