-- ==== Sys2Proof/Laws/Windows.lean ====
section
/-! SUPPORT. The shared operations on windows, the expiry list and scope stacks, each equal to the plain record
update the statements are written with. -/

namespace Sys2Proof.Machine
open Sys2Proof.Safety

/-! ## Phases and renewals -/

theorem insertExpiry_eq (time : LeaseTime) (i : WinIdx) (d : LeaseTime) (l : List Expiry) :
    insertExpiry time ⟨i, d⟩ l = l.takeWhile (fun e => (e.deadline - time).toNat ≤ (d - time).toNat) ++
      ⟨i, d⟩ :: l.dropWhile (fun e => (e.deadline - time).toNat ≤ (d - time).toNat) := by
  induction l with
  | nil => rfl
  | cons x xs ih =>
    unfold insertExpiry
    by_cases h : remaining time x.deadline ≤ remaining time d
    · rw [if_pos h, ih]
      simp only [remaining] at h
      simp only [List.takeWhile_cons, List.dropWhile_cons, decide_eq_true h, if_true]
      rfl
    · rw [if_neg h]
      simp only [remaining] at h
      simp only [List.takeWhile_cons, List.dropWhile_cons, decide_eq_false h]
      rfl

theorem finiteCode_iff (c : Code) : finiteCode c = true ↔ 1 ≤ c.toNat ∧ c.toNat ≤ 14 := by
  simp [finiteCode]

/-- Entering a phase is the record update `inPhase` (R76, R77). -/
theorem enterPhase_eq (i : WinIdx) (ph : Phase) (c : Code) (s : State) : enterPhase i ph c s = inPhase i ph c s := by
  by_cases h : 1 ≤ c.toNat ∧ c.toNat ≤ 14
  · have hf := (finiteCode_iff c).2 h
    simp only [enterPhase, hf, if_true, inPhase, deadlineOf, if_pos h, expiryAfter, removeExpiry]
    simp [State.win, State.setWin, insertExpiry_eq]
  · have hf : ¬ finiteCode c = true := fun q => h ((finiteCode_iff c).1 q)
    simp only [enterPhase, inPhase, deadlineOf, if_neg h, expiryAfter, removeExpiry]
    rw [if_neg hf]
    simp [State.win, State.setWin]

theorem enterHeld_eq (i : WinIdx) (s : State) : enterHeld i s = inPhase i .held (s.win i).hold s :=
  enterPhase_eq _ _ _ _

/-- A renewal is the record update `renewed` (R83). -/
theorem renewWindow_eq (i : WinIdx) (b : Code) (s : State) : renewWindow i b s = renewed i b s := by
  simp only [renewWindow, enterHeld_eq, renewed]

/-! ## Creation -/

/-- The FREE window of lowest index (R27). -/
theorem freeWindow_eq_some {s : State} {i : WinIdx} (h : (s.win i).phase = .free)
    (hj : ∀ j, j < i → (s.win j).phase ≠ .free) : freeWindow s = some i := by
  unfold freeWindow allWindows
  rw [List.find?_eq_some_iff_append]
  refine ⟨by simp [h], (List.finRange 32).take i.val, (List.finRange 32).drop (i.val + 1), ?_, ?_⟩
  · have e := List.take_append_drop i.val (List.finRange 32)
    rw [List.drop_eq_getElem_cons (by simp)] at e
    simpa using e.symm
  · intro j hjm
    rw [List.mem_take_iff_getElem] at hjm
    obtain ⟨k, hk, rfl⟩ := hjm
    have hlt : k < i.val := by simp at hk; omega
    have := hj ⟨k, by omega⟩ (by rw [Fin.lt_def]; exact hlt)
    simpa using this

theorem freeWindow_eq_none {s : State} (h : ∀ i, (s.win i).phase ≠ .free) : freeWindow s = none := by
  unfold freeWindow allWindows
  simp [h]

/-- A creation is the record update `created` (R26, R28, R29). -/
theorem enterFirst_newRecord (i : WinIdx) (n : NewWindow) (s : State) :
    enterFirst i (s.setWin i (newRecord n)) = created i n s := by
  have e : ((s.setWin i (newRecord n)).win i) = newRecord n := State.win_setWin_self _ _ _
  simp only [enterFirst, enterHeld_eq, enterPhase_eq, e]
  simp only [created, newRecord, beq_iff_eq]

/-! ## Scope stacks -/

theorem orphanOn_eq (i : WinIdx) : Frame.orphanOn i = orphanedFrame i := by
  funext f; simp [Frame.orphanOn, orphanedFrame]

theorem liveOn_eq (i : WinIdx) : Frame.liveOn i = countsFor i := rfl

/-- Lowering the references of removed frames touches the windows alone, each by the frames that count for it. -/
theorem lowerRefs_eq (fs : List Frame) (s : State) :
    (∀ i, (lowerRefs fs s).win i =
      { s.win i with scopeRefs := (s.win i).scopeRefs - fs.countP (countsFor i) }) ∧
      lowerRefs fs s = { s with windows := (lowerRefs fs s).windows } := by
  induction fs generalizing s with
  | nil => exact ⟨fun i => rfl, rfl⟩
  | cons f fs ih =>
    simp only [lowerRefs]
    by_cases ho : f.orphan = true
    · simp only [ho, if_true]
      refine ⟨fun i => ?_, (ih s).2⟩
      rw [(ih s).1 i]
      simp [countsFor, ho]
    · rw [if_neg ho]
      refine ⟨fun i => ?_, (ih _).2.trans rfl⟩
      rw [(ih _).1 i]
      by_cases hi : i = f.window
      · subst hi
        simp [lowerRef, countsFor, ho, Nat.sub_sub, Nat.add_comm]
      · have : ¬ f.window = i := fun h => hi h.symm
        simp [lowerRef, State.win_setWin_ne _ _ hi, countsFor, this]

/-- Emptying a stack touches that stack and the scope references of windows (R117, R118). -/
theorem emptyStack_eq (p : Port) (s : State) : (emptyStack p s).scopes = s.scopes.set p [] ∧
    (∀ i, (emptyStack p s).win i =
      { s.win i with scopeRefs := (s.win i).scopeRefs - (s.scopes.get p).countP (countsFor i) }) ∧
    emptyStack p s = { s with windows := (emptyStack p s).windows, scopes := (emptyStack p s).scopes } := by
  have h := lowerRefs_eq (s.scopes.get p) s
  have hs : (lowerRefs (s.scopes.get p) s).scopes = s.scopes := by rw [h.2]
  refine ⟨by simp only [emptyStack, hs], fun i => h.1 i, ?_⟩
  simp only [emptyStack]
  rw [h.2]

/-! ## Retirement -/

/-- A window out of the expiry list with its frames orphaned, in a phase without rights (R36, R81). -/
theorem orphanAll_removeExpiry (i : WinIdx) (ph : Phase) (s : State) :
    (orphanAll i (removeExpiry i s)).setWin i { (orphanAll i (removeExpiry i s)).win i with phase := ph } =
      withoutRights i ph s := by
  simp only [orphanAll, removeExpiry, withoutRights, orphaned, orphanOn_eq]
  simp [State.win, State.setWin]

/-- The end of a drain is the record update `drained` (R38, R138). -/
theorem endDrain_eq (i : WinIdx) (s : State) (h : engineMatches s) : endDrain i s = drained i s := by
  unfold endDrain drained
  cases hs : (s.win i).scrub
  · simp
  · simp only [if_true]
    by_cases hi : s.scrub.state = .idle
    · have hl := h.2 hi
      simp only [scrubAppend, State.setWin_scrub, hi, hl, scrubTake, List.nil_append, beq_self_eq_true, if_true]
      simp [Window.size, classSize, State.setWin, State.win]
    · have hi' : (s.scrub.state == .idle) = false := by simpa using hi
      simp only [scrubAppend, State.setWin_scrub, hi', hi]
      simp [State.setWin, State.win]

/-- Entering DRAINING is the record update `retired` (R36, R38). -/
theorem enterDraining_eq (i : WinIdx) (s : State) (h : engineMatches s) : enterDraining i s = retired i s := by
  have e : enterDraining i s = endDrainIfDone i (withoutRights i .draining s) := by
    rw [← orphanAll_removeExpiry]; rfl
  have w : (withoutRights i .draining s).win i =
      { s.win i with phase := .draining, deadline := none, scopeRefs := 0 } := by
    simp [withoutRights]
  have hm : engineMatches (withoutRights i .draining s) := h
  rw [e, endDrainIfDone, endDrain_eq _ _ hm, w, retired]
  by_cases hf : (s.win i).inFlight = 0 <;> simp [hf]

/-- The end of a binding is the record update `unbound` (R37, R38). -/
theorem releaseBinding_eq (i : WinIdx) (s : State) (h : engineMatches s) : releaseBinding i s = unbound i s := by
  have hm : engineMatches (s.setWin i { s.win i with inFlight := (s.win i).inFlight - 1 }) := h
  simp only [releaseBinding, endDrainIfDone, endDrain_eq _ _ hm, State.win_setWin_self, unbound,
    Bool.and_eq_true, beq_iff_eq, Nat.sub_eq_zero_iff_le]

theorem releaseBound_eq (b : Option WinIdx) (s : State) (h : engineMatches s) :
    releaseBound b s = unboundFrom b s := by
  cases b with
  | none => rfl
  | some i => exact releaseBinding_eq i s h

/-- The end of a drain keeps the engine in line with its progress record. -/
theorem engineMatches_drained (i : WinIdx) (s : State) (h : engineMatches s) : engineMatches (drained i s) := by
  unfold drained
  split
  · exact h
  · split
    · exact ⟨⟨fun e => by simp at e, fun e => by simp at e⟩, fun e => by simp at e⟩
    · rename_i hl
      refine ⟨h.1, fun e => (hl ⟨e, h.2 e⟩).elim⟩

theorem engineMatches_unbound (i : WinIdx) (s : State) (h : engineMatches s) : engineMatches (unbound i s) := by
  simp only [unbound]
  split
  · exact engineMatches_drained i _ h
  · exact h

/-- Entering LAPSED: retired with auto-retire, else LAPSE is set (R81). -/
theorem enterLapsed_eq (i : WinIdx) (s : State) (h : engineMatches s) : enterLapsed i s = lapsed i s := by
  unfold lapsed
  have e : enterLapsed i s = if ((withoutRights i .lapsed s).win i).autoRetire then
      enterDraining i (withoutRights i .lapsed s) else (withoutRights i .lapsed s).raise causeLapse := by
    rw [← orphanAll_removeExpiry]; rfl
  have w : ((withoutRights i .lapsed s).win i).autoRetire = (s.win i).autoRetire := by simp [withoutRights]
  have hm : engineMatches (withoutRights i .lapsed s) := h
  rw [e, w, enterDraining_eq _ _ hm]
  have o : orphanedFrame i ∘ orphanedFrame i = orphanedFrame i := by
    funext f
    simp only [Function.comp, orphanedFrame]
    by_cases hf : f.window = i <;> simp [hf]
  have d : withoutRights i .draining (withoutRights i .lapsed s) = withoutRights i .draining s := by
    simp only [withoutRights, orphaned]
    simp [State.win, State.setWin, o]
  have r : retired i (withoutRights i .lapsed s) = retired i s := by
    have w2 : (withoutRights i .lapsed s).win i = { s.win i with phase := .lapsed, deadline := none, scopeRefs := 0 } := by
      simp [withoutRights]
    simp only [retired, d, w2]
  rw [r]
  rfl

/-- The expiry of a live window is the record update `expired` (R79, R80, R81). -/
theorem expiryOf_eq (i : WinIdx) (s : State) (h : engineMatches s)
    (live : (s.win i).phase = .arming ∨ (s.win i).phase = .held ∨ (s.win i).phase = .taper) :
    expiryOf i s = expired s i := by
  rcases live with e | e | e <;> simp [expiryOf, expired, e, enterHeld_eq, enterPhase_eq, enterLapsed_eq _ _ h]

end Sys2Proof.Machine
end

