-- ==== Sys2Proof/Laws/Entries.lean ====
section
/-! SUPPORT. Pending entries in their places: which write takes a data beat, and what the settling of an entry
leaves, each equal to the record update the statements are written with. -/

namespace Sys2Proof.Machine
open Sys2Proof.Safety

/-! ## Places -/

/-- The oldest entry that waits for data, at the number of the older ones (R5). -/
theorem oldestWaiting_append {older younger : List Entry} {e : Entry} (h : ∀ x ∈ older, x.progress ≠ .waitingData)
    (he : e.progress = .waitingData) : oldestWaiting (older ++ e :: younger) = some (older.length, e) := by
  induction older with
  | nil => simp [oldestWaiting, he]
  | cons x xs ih =>
    have hx : (x.progress == .waitingData) = false := by simpa using h x (by simp)
    simp [oldestWaiting, hx, ih fun y hy => h y (List.mem_cons_of_mem _ hy)]

/-- No entry waits for data. -/
theorem oldestWaiting_none {es : List Entry} (h : ∀ x ∈ es, x.progress ≠ .waitingData) : oldestWaiting es = none := by
  induction es with
  | nil => rfl
  | cons x xs ih =>
    have hx : (x.progress == .waitingData) = false := by simpa using h x (by simp)
    simp [oldestWaiting, hx, ih fun y hy => h y (List.mem_cons_of_mem _ hy)]

/-- The entry of a slot is at the number of its older ones. -/
theorem stands_get {s : State} {p : Port} {q : Slot} (h : stands s p q) :
    (s.port p).pending[q.older.length]? = some q.entry := by
  rw [h.1]; simp

/-- An entry replaced in its place. -/
theorem setEntry_eq {s : State} {p : Port} {q : Slot} (h : stands s p q) (e : Entry) :
    setEntry p q.older.length e s = s.setPort p { s.port p with pending := q.older ++ e :: q.younger } := by
  simp [setEntry, h.1]

/-! ## Departure -/

/-- The settled front of a list leaves with its responses (R8). -/
theorem leaving_eq (es : List Entry) :
    leaving es = ((es.takeWhile isSettled).filterMap (·.response), es.dropWhile isSettled) := by
  induction es with
  | nil => rfl
  | cons e es ih =>
    by_cases h : e.progress = .settled
    · have hb : isSettled e = true := by simp [isSettled, h]
      simp only [leaving, h, beq_self_eq_true, if_true, ih, List.takeWhile_cons, List.dropWhile_cons, hb]
      cases hr : e.response <;> simp [hr]
    · have hb : isSettled e = false := by simpa [isSettled] using h
      simp [leaving, h, hb]

/-- A departure is the record update `followed` on the whole list. -/
theorem depart_eq (p : Port) (s : State) : depart p s = followed p (s.port p).pending s := by
  simp only [depart, leaving_eq, followed]

/-- An entry settled in its place, and then what leaves, is the record update `answeredAt` (R7, R8). -/
theorem depart_settle {s : State} {p : Port} {q : Slot} (h : stands s p q) (r : Response) :
    depart p (setEntry p q.older.length (q.entry.settle r) s) = answeredAt p q r s := by
  rw [setEntry_eq h, depart_eq]
  cases ho : q.older with
  | nil =>
    have hb : isSettled (q.entry.settle r) = true := rfl
    have hr : (q.entry.settle r).response = some r := rfl
    simp [answeredAt, ho, followed, hb, hr]
  | cons x xs =>
    have hx : isSettled x = false := by simpa [isSettled] using h.2 x (by simp [ho])
    simp [answeredAt, ho, followed, hx, Entry.settle]

/-! ## Data deadlines -/

/-- The Scrub Engine's taking of a window touches no port. -/
theorem scrubTake_setPort (p : Port) (x : Piu) (s : State) : scrubTake (s.setPort p x) = (scrubTake s).setPort p x := by
  unfold scrubTake
  rw [State.setPort_scrub]
  cases s.scrub.list <;> rfl

theorem scrubAppend_setPort (i : WinIdx) (p : Port) (x : Piu) (s : State) :
    scrubAppend i (s.setPort p x) = (scrubAppend i s).setPort p x := by
  unfold scrubAppend
  by_cases h : (s.scrub.state == .idle) = true
  · rw [if_pos h, if_pos (show ((s.setPort p x).scrub.state == .idle) = true from h)]
    exact scrubTake_setPort p x { s with scrub := { s.scrub with list := s.scrub.list ++ [i] } }
  · rw [if_neg h, if_neg (show ¬ ((s.setPort p x).scrub.state == .idle) = true from h)]
    rfl

/-- The end of a drain touches no port. -/
theorem endDrainIfDone_setPort (i : WinIdx) (p : Port) (x : Piu) (s : State) :
    endDrainIfDone i (s.setPort p x) = (endDrainIfDone i s).setPort p x := by
  have hd : endDrain i (s.setPort p x) = (endDrain i s).setPort p x := by
    unfold endDrain
    rw [State.win_setPort]
    split
    · exact scrubAppend_setPort i p x (s.setWin i { s.win i with phase := .scrubWait })
    · rfl
  unfold endDrainIfDone
  rw [State.win_setPort, hd]
  split <;> rfl

/-- The end of a binding touches no port, whatever its entry has become (R37). -/
theorem releaseBound_setPort (b : Option WinIdx) (p : Port) (x : Piu) (s : State) :
    releaseBound b (s.setPort p x) = (releaseBound b s).setPort p x := by
  cases b with
  | none => rfl
  | some i =>
    simp only [releaseBound, releaseBinding, State.win_setPort]
    exact endDrainIfDone_setPort i p x (s.setWin i { s.win i with inFlight := (s.win i).inFlight - 1 })

theorem releaseBound_port (b : Option WinIdx) (p : Port) (s : State) : (releaseBound b s).port p = s.port p := by
  have h := releaseBound_setPort b p (s.port p) s
  rw [State.setPort_port] at h
  rw [h, State.port_setPort_self]

/-- A fault event leaves the port's pending list. -/
theorem faultEvent_pending (p : Port) (reason : Reason) (kind : FaultKind) (a : PortAddr) (w : Option WinIdx)
    (s : State) : ((faultEvent p reason kind a w s).port p).pending = (s.port p).pending := by
  simp only [faultEvent, stopOnFault, recordFault]
  split <;> split <;> simp [Piu.setFlags, State.port, State.setPort, State.raise]

/-- A fault event reads nothing of the port's pending list. -/
theorem faultEvent_setPending (p : Port) (reason : Reason) (kind : FaultKind) (a : PortAddr) (w : Option WinIdx)
    (l : List Entry) (s : State) :
    faultEvent p reason kind a w (s.setPort p { s.port p with pending := l }) =
      (faultEvent p reason kind a w s).setPort p
        { (faultEvent p reason kind a w s).port p with pending := l } := by
  have hr : faultRecordOf (s.setPort p { s.port p with pending := l }) p reason kind a w =
      faultRecordOf s p reason kind a w := by simp [faultRecordOf]
  simp only [faultEvent, hr, recordFault, State.setPort_faults, stopOnFault]
  by_cases hf : (s.faults.record (faultRecordOf s p reason kind a w)).2 = true <;>
    by_cases ha : (s.piu.get p).arm = true <;> by_cases hs : (s.piu.get p).state = .active <;>
      simp [hf, ha, hs, Piu.setFlags, State.port, State.setPort, State.raise]

/-- An entry settled before its fault event is an entry settled after it. -/
theorem faultEvent_setEntry (p : Port) (reason : Reason) (kind : FaultKind) (a : PortAddr) (w : Option WinIdx)
    (place : Nat) (e : Entry) (s : State) : faultEvent p reason kind a w (setEntry p place e s) =
      setEntry p place e (faultEvent p reason kind a w s) := by
  simp only [setEntry, faultEvent_setPending, faultEvent_pending]

/-- An entry settled before its binding ends is an entry settled after it. -/
theorem releaseBound_setEntry (b : Option WinIdx) (p : Port) (place : Nat) (e : Entry) (s : State) :
    releaseBound b (setEntry p place e s) = setEntry p place e (releaseBound b s) := by
  simp only [setEntry, releaseBound_setPort, releaseBound_port]

/-- The slot stands where the pending list is the same. -/
theorem stands_of_pending {s t : State} {p : Port} {q : Slot} (h : stands s p q)
    (e : (t.port p).pending = (s.port p).pending) : stands t p q := ⟨e.trans h.1, h.2⟩

/-- A data deadline is the record update `timedOut` (R6). -/
theorem dataDeadline_eq {s : State} {p : Port} {q : Slot} (h : stands s p q) (hm : engineMatches s)
    (hw : q.entry.progress = .waitingData) :
    dataDeadline p q.older.length q.entry s = timedOut p q s := by
  have hu : stands (s.setPort p { s.port p with discard := (s.port p).discard + q.entry.missing }) p q :=
    stands_of_pending h (by rw [State.port_setPort_self])
  have hmu : engineMatches (s.setPort p { s.port p with discard := (s.port p).discard + q.entry.missing }) := hm
  have hr : ∀ reason, refusedResponse q.entry.access reason = refusal q.entry.access reason := by
    intro reason
    cases hk : q.entry.access.kind <;> simp [refusedResponse, refusal, zeroData, hk]
  unfold dataDeadline deadlineSettled deadlineOutcome timedOut
  simp only [releaseBound_setEntry, faultEvent_setEntry, hr]
  cases hd : q.entry.decision with
  | admitted addrs lanes trimmed bound =>
    rw [depart_settle (stands_of_pending hu (by rw [faultEvent_pending, releaseBound_port])),
      releaseBound_eq _ _ hmu]
    rfl
  | allAborted =>
    rw [depart_settle (stands_of_pending hu (by rw [faultEvent_pending]))]
    rfl
  | routed =>
    rw [depart_settle (stands_of_pending hu (by rw [faultEvent_pending]))]
    rfl
  | refused reason =>
    rw [depart_settle hu]
    rfl
  | served w =>
    refine (depart_of_unsettled fun e es he => ?_).trans rfl
    rw [hu.1] at he
    cases ho : q.older with
    | nil => rw [ho] at he; cases he; simp [hw]
    | cons x xs => rw [ho] at he; cases he; exact h.2 _ (by simp [ho])

/-- A data deadline of an LCLK period is the record update `deadlineTaken` where no older entry is SETTLED (R6). -/
theorem deadlineIf_eq {s : State} {p : Port} {place : Nat} (hm : engineMatches s)
    (ho : ∀ e ∈ (s.port p).pending.take place, e.progress ≠ .settled) :
    deadlineIf (· == 0) p place s = deadlineTaken p place s := by
  unfold deadlineIf deadlineEntry deadlineTaken
  rw [← List.head?_drop]
  cases hd : (s.port p).pending.drop place with
  | nil => rfl
  | cons e younger =>
    simp only [List.head?_cons]
    by_cases hw : e.progress = .waitingData
    · cases hc : e.deadlineCount with
      | none => simp [hw]
      | some n =>
        by_cases hn : n = 0
        · have hl : ((s.port p).pending.take place).length = place := by
            have := congrArg List.length hd
            simp only [List.length_drop, List.length_cons] at this
            rw [List.length_take]
            omega
          have hst : stands s p ⟨(s.port p).pending.take place, e, younger⟩ :=
            ⟨by rw [← hd, List.take_append_drop], ho⟩
          have := dataDeadline_eq hst hm hw
          rw [hl] at this
          simp [hw, hn, this]
        · simp [hw, hn]
    · simp [hw]

/-! ## Bindings of a list of entries -/

theorem binding_eq (e : Entry) : e.binding = boundWindow e := by
  unfold Entry.binding boundWindow Decision.boundWindow
  by_cases h : e.progress = .settled
  · simp [h]
  · cases e.decision <;> simp [h]

/-- The bindings of a list of entries end as the record update `unboundAll` (R37). -/
theorem releaseEntries_eq (es : List Entry) (s : State) (h : engineMatches s) :
    releaseEntries es s = unboundAll es s := by
  induction es generalizing s with
  | nil => rfl
  | cons e es ih =>
    have hm : engineMatches (unboundFrom (boundWindow e) s) := by
      cases boundWindow e with
      | none => exact h
      | some i => exact engineMatches_unbound i s h
    simp only [releaseEntries, unboundAll, List.foldl_cons, binding_eq, releaseBound_eq _ _ h]
    have := ih _ hm
    simpa only [releaseEntries, unboundAll, binding_eq] using this

/-! ## The last beat of a control write -/

/-- The slot stays with its entry replaced. -/
theorem stands_entry {s : State} {p : Port} {q : Slot} (h : stands s p q) (e : Entry) :
    stands (setEntry p q.older.length e s) p { q with entry := e } := by
  refine ⟨?_, h.2⟩
  rw [setEntry_eq h]
  simp

/-- Where the statements say that a last beat is due, the port finds it. -/
theorem routedBeatDue_eq {s : State} {p : Port} {n : Nat} {q : Slot} {kept : List Word}
    (h : lastBeatDue s p n q kept) : routedBeatDue s p = some (q.older.length, q.entry) := by
  obtain ⟨⟨hp, hs⟩, hr, hd, hl, ⟨hw, ho⟩, hdec, -, -, hb, hrec, -⟩ := h
  have ht : takesBeats s p = true := by simp [takesBeats, hp, hs, hr]
  simp [routedBeatDue, ht, hd, hl.1, oldestWaiting_append ho hw, hdec, hrec, hb]

theorem controlBeatDue_eq {s : State} {p : Port} {n : Nat} {q : Slot} {kept : List Word}
    (h : lastBeatDue s p n q kept) : controlBeatDue s p n = some (q.older.length, q.entry) := by
  have ha : apertureWordOf q.entry.access = n := by
    simp only [apertureWordOf, h.2.2.2.2.2.2.2.1, Config.apertureBase]; omega
  simp [controlBeatDue, routedBeatDue_eq h, ha]

/-! ## What meets a port reset -/

/-- Nothing that is not due meets the assertion of a reset line. -/
theorem meetReset_deadline_of_none {p : Port} {place : Nat} {s : State}
    (h : deadlineEntry (· ≤ 1) p place s = none) : meetReset p s (.deadline place) = s := by
  simp [meetReset, h]

theorem meetReset_lastBeat_of_none {p : Port} {w : Word} {s : State} (h : routedBeatDue s p = none) :
    meetReset p s (.lastBeat w) = s := by
  simp [meetReset, h]

/-- A last beat that is due is carried out without a departure (R15). -/
theorem meetReset_lastBeat {s : State} {p : Port} {n : Nat} {q : Slot} {kept : List Word} (w : Word)
    (h : lastBeatDue s p n q kept) : meetReset p s (.lastBeat w) =
      carryRouted (ownerOf (apertureWordOf q.entry.access)) p q.older.length q.entry w s := by
  simp [meetReset, routedBeatDue_eq h]

end Sys2Proof.Machine
end

