-- ==== Sys2Proof/Laws/Memory.lean ====
section
/-! SUPPORT. The SRAM content: its canonical form is kept by every operation, and what a read finds after
a write. -/

namespace Sys2Proof.Machine

/-- A write reads back; every other key reads as before. -/
theorem Memory.read_write (m : Memory) (a : Nat) (b : Byte) (k : Nat) :
    Memory.read (Memory.write m a b) k = if a = k then some b else Memory.read m k := by
  induction m with
  | nil => simp [Memory.write, Memory.read]
  | cons c m ih =>
    obtain ⟨l, v⟩ := c
    simp only [Memory.write]
    split
    · simp [Memory.read]
    · split
      · rename_i h; subst h
        simp only [Memory.read]; split <;> rfl
      · simp only [Memory.read, ih]
        split <;> split <;> first | rfl | omega

/-- Keys that rise from a higher bound rise from a lower one. -/
theorem Memory.rising_mono {m : Memory} {j k : Nat} (hjk : j ≤ k) (h : Memory.rising k m = true) :
    Memory.rising j m = true := by
  cases m with
  | nil => rfl
  | cons c m =>
    simp only [Memory.rising, Bool.and_eq_true, decide_eq_true_eq] at h ⊢
    exact ⟨⟨by omega, h.1.2⟩, h.2⟩

theorem Memory.rising_write {m : Memory} {k a : Nat} {b : Byte} (hk : k ≤ a) (ha : a < 4 * Config.sramWords)
    (h : Memory.rising k m = true) : Memory.rising k (Memory.write m a b) = true := by
  induction m generalizing k with
  | nil => simp [Memory.write, Memory.rising, hk, ha]
  | cons c m ih =>
    obtain ⟨l, v⟩ := c
    simp only [Memory.rising, Bool.and_eq_true, decide_eq_true_eq] at h
    simp only [Memory.write]
    split
    · simp only [Memory.rising, Bool.and_eq_true, decide_eq_true_eq]
      exact ⟨⟨hk, ha⟩, ⟨by omega, h.1.2⟩, h.2⟩
    · split
      · rename_i h1; subst h1
        simp only [Memory.rising, Bool.and_eq_true, decide_eq_true_eq]
        exact ⟨⟨hk, ha⟩, h.2⟩
      · simp only [Memory.rising, Bool.and_eq_true, decide_eq_true_eq]
        exact ⟨h.1, ih (by omega) h.2⟩

/-- A write inside the SRAM keeps the canonical form. -/
theorem Memory.wf_write {m : Memory} {a : Nat} {b : Byte} (ha : a < 4 * Config.sramWords) (h : Memory.wf m = true) :
    Memory.wf (Memory.write m a b) = true :=
  Memory.rising_write (Nat.zero_le a) ha h

/-- A lane's key lies inside the SRAM. -/
theorem laneKey_lt (addr : SramAddr) {n : Nat} (hn : n < 4) : laneKey addr n < 4 * Config.sramWords := by
  have := addr.isLt
  simp only [laneKey, Config.sramWords]
  omega

theorem wf_writeLane {m : Memory} (addr : SramAddr) (lanes : LaneSet) (w : Word) {n : Nat} (hn : n < 4)
    (h : Memory.wf m = true) : Memory.wf (writeLane addr lanes w m n) = true := by
  unfold writeLane
  split
  · exact Memory.wf_write (laneKey_lt addr hn) h
  · exact h

/-- A write beat keeps the canonical form. -/
theorem wf_writeWord {m : Memory} (addr : SramAddr) (lanes : LaneSet) (w : Word) (h : Memory.wf m = true) :
    Memory.wf (writeWord m addr lanes w) = true := by
  simp only [writeWord, List.foldl]
  exact wf_writeLane _ _ _ (by decide) (wf_writeLane _ _ _ (by decide)
    (wf_writeLane _ _ _ (by decide) (wf_writeLane _ _ _ (by decide) h)))

/-- A write burst keeps the canonical form. -/
theorem wf_writeBeats (addrs : List SramAddr) (lanes : List LaneSet) (data : List Word) (m : Memory)
    (h : Memory.wf m = true) : Memory.wf (writeBeats addrs lanes data m) = true := by
  induction addrs, lanes, data, m using writeBeats.induct with
  | case1 a as l ls w ws m ih => exact ih (wf_writeWord a l w h)
  | case2 => simpa [writeBeats] using h

/-- A lane write: its own key where the lane is in the set, every other key as before. -/
theorem read_writeLane (addr : SramAddr) (lanes : LaneSet) (w : Word) (m : Memory) (n k : Nat) :
    Memory.read (writeLane addr lanes w m n) k =
      if lanes.getLsbD n = true ∧ laneKey addr n = k then some (w.extractLsb' (8 * n) 8)
      else Memory.read m k := by
  unfold writeLane
  by_cases hl : lanes.getLsbD n = true
  · simp [hl, Memory.read_write]
  · simp [hl]

/-- A write beat leaves every byte outside its word as it was. -/
theorem read_writeWord_other (m : Memory) (addr : SramAddr) (lanes : LaneSet) (w : Word) (k : Nat)
    (h : ∀ n < 4, lanes.getLsbD n = true → laneKey addr n ≠ k) :
    Memory.read (writeWord m addr lanes w) k = Memory.read m k := by
  have h0 := h 0 (by decide); have h1 := h 1 (by decide); have h2 := h 2 (by decide); have h3 := h 3 (by decide)
  simp only [writeWord, List.foldl, read_writeLane]
  rw [if_neg (fun c => h3 c.1 c.2), if_neg (fun c => h2 c.1 c.2), if_neg (fun c => h1 c.1 c.2),
    if_neg (fun c => h0 c.1 c.2)]

/-- A write beat writes the byte of each lane of its set. -/
theorem read_writeWord_lane (m : Memory) (addr : SramAddr) (lanes : LaneSet) (w : Word) {n : Nat} (hn : n < 4)
    (hl : lanes.getLsbD n = true) :
    Memory.read (writeWord m addr lanes w) (laneKey addr n) = some (w.extractLsb' (8 * n) 8) := by
  have key : ∀ a b : Nat, laneKey addr a = laneKey addr b ↔ a = b := by
    intro a b; simp only [laneKey]; omega
  simp only [writeWord, List.foldl, read_writeLane, key]
  match n, hn with
  | 0, _ => simp [hl]
  | 1, _ => simp [hl]
  | 2, _ => simp [hl]
  | 3, _ => simp [hl]

end Sys2Proof.Machine
end

