-- ==== Sys2Proof/Tests/Slice0.lean ====
section
/-! SUPPORT. Tests: ill-formed commands, worked examples of the spec, small steps, and states that meet the
hypotheses of the obligations. -/

namespace Sys2Proof.Tests
open Sys2Proof.Machine Sys2Proof.Safety

/-! ## Helpers -/

/-- The next state of an outcome. -/
def after (o : Host.Outcome State Fault Refusal) : State :=
  match o with
  | .next t => t
  | .refused _ => State.reset

/-- A GRANT of port A in HELD: port words 0x1000 to 0x100F onto SRAM words 0x8000 to 0x800F. -/
def heldA : Window where
  phase := .held
  kind := .grant
  ports := 1
  portBase := 0x1000
  sizeClass := 4
  target := some 0x8000
  rights := 3
  writeLanes := 15
  lanePolicy := .strict
  scrub := false
  autoRetire := false
  onset := 0
  hold := 4
  taper := 0
  scale := 0
  renewBudget := 1
  deadline := none
  inFlight := 0
  scopeRefs := 0
  origin := none

/-- Reset with `w` as window 3. -/
def with3 (w : Window) : State := State.reset.setWin 3 w

/-- A one-beat access at 0x1005. -/
def at1005 (kind : AccessKind) : Access := ⟨kind, 0x1005, 1, [15]⟩

/-- A one-beat control access at an aperture word. -/
def control (kind : AccessKind) (n : Nat) : Access := ⟨kind, BitVec.ofNat 22 (4194288 + n), 1, [0]⟩

/-- Port A's pending list replaced. -/
def pendingA (es : List Entry) (s : State) : State := s.setPort .a { s.port .a with pending := es }

/-- A read burst of port A under way. -/
def busy (s : State) : State :=
  { s with seq := { s.seq with burst := some ⟨.port .a, .read, 1, [0], [], [], none, none⟩ } }

/-- An exact frame of a selector with its incoming content. -/
def framed (sel : BitVec 8) (len : Nat) (x : Payload) (s : State) : State :=
  { s with mgmt := { s.mgmt with
      select := true, frame := .payload, selector := sel, bitCount := len, incoming := x } }

/-- An exact ACTION frame of an action record. -/
def acting (ws : List Word) (s : State) : State := framed 8 128 (payloadOf ws) s

/-- The routed control write at word `n`, the words before its last data beat received. -/
def routedAt (n : Nat) (kept : List Word) : Entry :=
  { entryAtAcceptance ⟨.write, BitVec.ofNat 22 (4194288 + n), kept.length + 1, []⟩ .routed with
    received := some kept.length, kept := kept }

/-- `s` with that write as port A's only entry. -/
def routing (n : Nat) (kept : List Word) (s : State) : State := pendingA [routedAt n kept] s

/-- Nothing is a candidate. -/
theorem quiet_of {s : State} (h : (!scrubCandidate s && allPorts.all fun p => !portCandidate s p) = true) :
    noCandidate s := by
  simp only [allPorts, List.all_cons, List.all_nil, Bool.and_eq_true, Bool.not_eq_true'] at h
  exact ⟨h.1, fun p => by cases p <;> simp [h]⟩

/-- No grant decision is due on a quiet part. -/
theorem noGrant_of {s : State} (h : (!scrubCandidate s && allPorts.all fun p => !portCandidate s p) = true) :
    noGrantDue s := Or.inr (Or.inr (Or.inr (quiet_of h)))

/-- The oldest entry of no port is SETTLED. -/
theorem oldest_of {s : State}
    (h : (allPorts.all fun p => (s.port p).pending.head?.all fun e => e.progress != .settled) = true) :
    oldestUnsettled s := by
  intro p e es he
  have hp : ((s.port p).pending.head?.all fun e => e.progress != .settled) = true := by
    simp only [allPorts, List.all_cons, List.all_nil, Bool.and_eq_true] at h
    cases p <;> simp [h]
  simpa [he] using hp

/-- The engine matches its progress record. -/
theorem engine_of {s : State} (h : s.scrub.state = .idle ∧ s.scrub.progress = none ∧ s.scrub.list = []) :
    engineMatches s := ⟨⟨fun _ => h.2.1, fun _ => h.1⟩, fun _ => h.2.2⟩

/-! ## Commands the buses cannot carry -/

theorem test_wf_beats_low : (Instr.acceptDataAccess .a ⟨.read, 0, 0, []⟩).wellFormed = false := by decide
theorem test_wf_beats_high : (Instr.acceptDataAccess .a ⟨.read, 0, 5, [0, 0, 0, 0, 0]⟩).wellFormed = false := by decide
theorem test_wf_lanes : (Instr.acceptDataAccess .a ⟨.write, 0, 2, [15]⟩).wellFormed = false := by decide
theorem test_wf_data_class : (Instr.acceptDataAccess .a (control .read 9)).wellFormed = false := by decide
theorem test_wf_control_class : (Instr.acceptControlAccess .a (at1005 .read)).wellFormed = false := by decide
theorem test_wf_place : (Instr.dataDeadline .a 2).wellFormed = false := by decide
theorem test_wf_order : (Instr.lclkPeriod [.deadline .b 2]).wellFormed = false := by decide
theorem test_wf_meeting : (Instr.portResetAssert .a ⟨[.deadline 2], .oldestFirst⟩).wellFormed = false := by decide
theorem test_wf_good : (Instr.acceptDataAccess .a (at1005 .write)).wellFormed = true ∧
    (Instr.acceptControlAccess .a (control .read 9)).wellFormed = true ∧ (Instr.dataDeadline .a 1).wellFormed = true ∧
    (Instr.lclkPeriod [.tick, .deadline .b 1, .grant]).wellFormed = true ∧
    (Instr.portResetAssert .a ⟨[.deadline 1, .lastBeat 0], .oldestFirst⟩).wellFormed = true := by decide
theorem test_no_words : decodeTableWord 32 0 = none := by decide

/-! ## Worked examples of the spec -/

theorem test_new_words : newTag 0x5FD84000 = 5 ∧ newFieldsOf 0x5FD84000 0x60008000 =
    ⟨0x8000, 12, 3, 15, .strict, 8, 4, true⟩ := by decide
theorem test_revoke_word : (actionRecordOf (payloadOf [0x38E00000, 0, 0, 0])).code = 7 ∧
    (actionRecordOf (payloadOf [0x38E00000, 0, 0, 0])).index = 7 := by decide
theorem test_result_words : resultWords ⟨.done, some 7, 1000⟩ = [0x09C00000, 0x3E8, 0, 0] := by decide
theorem test_clock_word : (clockWords State.reset).head? = some 0x200061A8 := by decide
theorem test_free_window : windowWords Window.cleared = [0x00200000, 0, 0, 0, 0] := by decide
theorem test_ident : captureOf 0 State.reset = 0x5A487FFF := by decide
theorem test_empty_head : requestHeadWords State.reset = [0x80000000, 0, 0, 0] := by decide
set_option maxRecDepth 20000 in
theorem test_selectors : ((List.range 256).countP fun n => (registerOf (BitVec.ofNat 8 n)).isSome) = 53 := by decide
theorem test_burst_wraps : beatAddressesOf ⟨.read, 6, 4, []⟩ = [6, 7, 4, 5] := by decide
theorem test_issue_order : relocated ⟨.write, 0x1000A, 4, []⟩ 0x10000 0x30000 =
    [0x3000A, 0x3000B, 0x30008, 0x30009] := by decide
theorem test_wrap_deadline : deadlineReached 4294967100 204 = false ∧ deadlineReached 204 204 = true := by decide
theorem test_largest_duration : duration 14 3 = 2048000 := by decide
theorem test_share_round : (grantDecision (pendingA [{ entryAtAcceptance (at1005 .read)
    (.admitted [0x8005] [] false none) with progress := .ready }] State.reset)).seq.lastGranted = .a := by decide

/-! ## One step a command -/

theorem test_acceptDataAccess : (after (exec (.acceptDataAccess .a (at1005 .read)) (with3 heldA))).seq =
    ⟨.a, 1, some ⟨.port .a, .read, 1, [0x8005], [], [], some 3, none⟩⟩ := by decide
theorem test_acceptDataAccess_refused :
    ((after (exec (.acceptDataAccess .b (at1005 .read)) (with3 heldA))).port .b).sent =
      [⟨.refused, some .noWindow, [0]⟩] := by decide
theorem test_acceptControlAccess : ((after (exec (.acceptControlAccess .a (control .read 9)) State.reset)).port .a).sent =
    [⟨.ok, none, [0x00040000]⟩] := by decide
theorem test_replyRead : ((after (exec (.replyRead .a)
    { State.reset with replies := State.reset.replies.set .a [⟨2, .granted 3⟩] })).port .a).sent =
      [⟨.ok, none, [0x24300000]⟩] := by decide
theorem test_writeDataBeat : ((after (exec (.writeDataBeat .a 7) (pendingA [entryAtAcceptance (at1005 .write)
    (.admitted [0x8005] [15] false (some 3))] (with3 heldA)))).seq.burst.map (·.data)) = some [7] := by decide
theorem test_newRequest : (after (exec (.newRequest .a 0x60008000) (routing 0 [0x5FD84000] State.reset))).requests =
    [⟨.a, 5, .new ⟨0x8000, 12, 3, 15, .strict, 8, 4, true⟩, 0⟩] := by decide
theorem test_portRenew : ((after (exec (.portRenew .a 3) (routing 2 [] (with3 heldA)))).win 3).deadline = some 5 := by
  decide
theorem test_portRenew_extend : (after (exec (.portRenew .a 0x703)
    (routing 2 [] (with3 { heldA with renewBudget := 0 })))).requests = [⟨.a, 7, .extend 3, 0⟩] := by decide
theorem test_withdraw : (after (exec (.withdraw .a 5) (routing 3 []
    { State.reset with requests := [⟨.a, 5, .extend 3, 0⟩] }))).requests = [] := by decide
theorem test_release : ((after (exec (.release .a 3) (routing 4 [] (with3 heldA)))).win 3) = Window.cleared := by decide
theorem test_scopePush : (after (exec (.scopePush .a 0x103) (routing 5 [] (with3 heldA)))).scopes.a =
    [⟨3, 1, 0x1000, 4, false⟩] := by decide
theorem test_scopePop : ((after (exec (.scopePop .a 0) (routing 6 [] State.reset))).port .a).sent =
    [⟨.refused, some .stackEmpty, []⟩] := by decide
theorem test_portClearFlags : ((after (exec (.portClearFlags .a 1) (routing 7 []
    (State.reset.setPort .a { State.reset.port .a with flags := 3 })))).port .a).flags = 2 := by decide
theorem test_dataDeadline : ((after (exec (.dataDeadline .a 0) (pendingA [{ entryAtAcceptance (at1005 .write) .allAborted
    with deadlineCount := some 1 }] State.reset))).port .a).discard = 1 := by decide
theorem test_lclkPeriod : (after (exec (.lclkPeriod []) { State.reset with
    clock := { State.reset.clock with run := true } })).clock.prescaler = 1 := by decide
theorem test_leaseTick : (after (exec .leaseTick { State.reset with
    clock := { State.reset.clock with run := true, periodDivisor := 1 } })).clock.time = 1 := by decide

/-- Window 3 as `w`, the clock one LCLK period before the tick that reaches its deadline. -/
def ticking (w : Window) : State :=
  { with3 { w with deadline := some 1 } with
    clock := { State.reset.clock with run := true, periodDivisor := 1, expiry := [⟨3, 1⟩] } }

theorem test_onsetExpiry : ((after (exec (.onsetExpiry 3) (ticking { heldA with phase := .arming }))).win 3).phase =
    .held := by decide
theorem test_holdExpiry : (after (exec (.holdExpiry 3) (ticking heldA))).attn.pending = 4 := by decide
theorem test_taperExpiry : ((after (exec (.taperExpiry 3) (ticking { heldA with phase := .taper }))).win 3).phase =
    .lapsed := by decide
theorem test_burstGrant : (after (exec .burstGrant (pendingA [{ entryAtAcceptance (at1005 .read)
    (.admitted [0x8005] [] false none) with progress := .ready }] State.reset))).seq.shareCount = 1 := by decide

/-- Port A's write of 7 into lane 0 of SRAM word 0x8005, under way. -/
def writing : State :=
  { pendingA [{ entryAtAcceptance (at1005 .write) (.admitted [0x8005] [1] true (some 3)) with progress := .executing }]
      (with3 { heldA with inFlight := 1 }) with
    seq := ⟨.a, 1, some ⟨.port .a, .write, 1, [0x8005], [1], [7], some 3, none⟩⟩ }

theorem test_portBurstComplete : (after (exec .portBurstComplete writing)).sram = [(0x20014, 7)] ∧
    ((after (exec .portBurstComplete writing)).port .a).sent = [⟨.trimmed, none, []⟩] := by decide

/-- Window 3 in SCRUBBING with `rem` words remaining, its group under way. -/
def scrubbing (rem : Nat) : State :=
  { with3 { heldA with phase := .scrubbing, scrub := true } with
    scrub := ⟨.running, some ⟨3, 16 - rem, rem⟩, [], 9⟩
    seq := ⟨.a, 0, some ⟨.scrub, .write, 4, [0x8000, 0x8001, 0x8002, 0x8003], [15, 15, 15, 15], [9, 9, 9, 9], none,
      some (3, 16 - rem)⟩⟩ }

theorem test_scrubBurstComplete : (after (exec .scrubBurstComplete (scrubbing 8))).scrub.progress =
    some ⟨3, 12, 4⟩ := by decide
theorem test_fillComplete : (after (exec .fillComplete (scrubbing 4))).attn.pending = 8 ∧
    (after (exec .fillComplete (scrubbing 4))).scrub = ⟨.idle, none, [], 9⟩ := by decide
theorem test_drainEnd : (after (exec (.drainEnd 3) (with3 { heldA with phase := .draining, scrub := true }))).scrub =
    ⟨.running, some ⟨3, 0, 16⟩, [], 0⟩ := by decide
theorem test_portResetAssert : ((after (exec (.portResetAssert .a ⟨[], .oldestFirst⟩) (pendingA [entryAtAcceptance
    (at1005 .write) (.admitted [0x8005] [15] false (some 3))] (with3 { heldA with inFlight := 1 })))).win 3).inFlight = 0 := by
  decide

/-- Port A's write bound to window 3, at its last LCLK period. -/
def lastPeriod : State := pendingA [{ entryAtAcceptance (at1005 .write) (.admitted [0x8005] [15] false (some 3)) with
  deadlineCount := some 1 }] (with3 { heldA with inFlight := 1 })

/-- The deadline alone is answered; the same deadline taken first at the assertion of the line is not (R15). -/
theorem test_portResetAssert_meets :
    ((after (exec (.dataDeadline .a 0) lastPeriod)).port .a).sent = [⟨.refused, some .dataTimeout, []⟩] ∧
    ((after (exec (.portResetAssert .a ⟨[.deadline 0], .oldestFirst⟩) lastPeriod)).port .a).sent = [] ∧
    (after (exec (.portResetAssert .a ⟨[.deadline 0], .oldestFirst⟩) lastPeriod)).attn.pending = 2 := by decide
theorem test_portResetAssert_beat : (after (exec (.portResetAssert .a ⟨[.lastBeat 3], .oldestFirst⟩)
    (routing 4 [] (with3 heldA)))).win 3 = Window.cleared := by decide
theorem test_portResetRelease : ((after (exec (.portResetRelease .a)
    (State.reset.setPort .a (State.reset.port .a).resetLine))).port .a).state = .active := by decide
theorem test_porstAssert : (after (exec .porstAssert (with3 heldA))).win 3 = Window.cleared := by decide
theorem test_powerOnReset : after (exec .powerOnReset { State.reset with porst := true }) = State.reset := by decide
theorem test_softResetEnd : (after (exec .softResetEnd { writing with softReset := true })).softReset = false ∧
    ((after (exec .softResetEnd { writing with softReset := true })).port .a).sent = [⟨.trimmed, none, []⟩] := by decide
theorem test_malformedFrame : (after (exec .malformedFrame (framed 0 31 0 State.reset))).mgmt.malformed = true := by decide
theorem test_readOnlyFrame : (after (exec .readOnlyFrame (framed 0x5F 160 0 State.reset))).mgmt.frame = .closed := by decide
theorem test_attnEnable : (after (exec .attnEnable (framed 2 8 0x83 State.reset))).attn.enables = 3 := by decide
theorem test_attnAck : (after (exec .attnAck (framed 3 8 0x1F { State.reset with
    attn := ⟨31, 0⟩, requests := [⟨.a, 5, .extend 3, 0⟩] }))).attn.pending = 1 := by decide
theorem test_clock : (after (exec .clock (framed 4 64 (payloadOf [0xA0000000, 0]) State.reset))).clock =
    ⟨65536, 65536, 0, true, 0, [], 4⟩ := by decide
theorem test_scrubUpdate : (after (exec .scrubUpdate (framed 5 128 (payloadOf [9, 1, 1, 1]) State.reset))).scrub.pattern =
    9 := by decide
theorem test_fixedMap : ((after (exec .fixedMap (framed 6 136 (0x80E4 <<< 120) State.reset))).map.entries[0]) =
    ⟨.none, .read, .readWrite, .none⟩ := by decide
theorem test_portArmUpdate : ((after (exec .portArmUpdate (framed 0x13 32 0x800000 State.reset))).port .d).arm = true := by
  decide
theorem test_nullAction : after (exec .nullAction (acting [0, 0, 0, 0] State.reset)) = State.reset := by decide
theorem test_badAction : (after (exec .badAction (acting [0x80000000, 0, 0, 0] State.reset))).mgmt.lastResult =
    ⟨.badAction, none, 0⟩ := by decide

/-- CREATE of a GRANT of port A at 0x1000, target 0x8000, all rights and lanes, hold code 4. -/
def createWords : List Word := [0x08000000, 0x08020004, 0x020003F0, 0x04000000]

theorem test_create : (after (exec .create (acting createWords State.reset))).win 0 =
    { heldA with renewBudget := 0, deadline := some 5 } := by decide
theorem test_create_overlap : (after (exec .create (acting createWords (with3 heldA)))).mgmt.lastResult =
    ⟨.overlap, none, 0⟩ := by decide
theorem test_grantHead : (after (exec .grantHead (acting [0x10028000, 0, 0x020003F0, 0x04000000] { State.reset with
    requests := [⟨.a, 5, .new ⟨0x1000, 4, 3, 15, .strict, 0, 0, false⟩, 0⟩] }))).replies.a = [⟨5, .granted 0⟩] := by decide
theorem test_refuseHead : (after (exec .refuseHead (acting [0x1802D000, 0, 0, 0] { State.reset with
    requests := [⟨.a, 5, .extend 3, 0⟩] }))).replies.a = [⟨5, .refused 10⟩] := by decide
theorem test_amend : ((after (exec .amend (acting [0x20600000, 0x18000000, 0x100, 0] (with3 heldA)))).win 3).ports = 3 := by
  decide
theorem test_renew : ((after (exec .renew (acting [0x28600480, 0, 0, 0] (with3 { heldA with phase := .lapsed })))).win 3) =
    { heldA with renewBudget := 9, deadline := some 5 } := by decide
theorem test_activate : ((after (exec .activate (acting [0x30600000, 0, 0, 0]
    (with3 { heldA with phase := .arming, onset := 15 })))).win 3).phase = .held := by decide
theorem test_revoke : (after (exec .revoke (acting [0x38600000, 0, 0, 0] (with3 { heldA with scrub := true })))).seq.burst =
    some ⟨.scrub, .write, 4, [0x8000, 0x8001, 0x8002, 0x8003], [15, 15, 15, 15], [0, 0, 0, 0], none, some (3, 0)⟩ := by
  decide
theorem test_unwind : (after (exec .unwind (acting [0x40000000, 0, 0, 0] { State.reset with
    scopes := State.reset.scopes.set .a [⟨3, 1, 0x1000, 4, true⟩] }))).scopes.a = [] := by decide
theorem test_resumePort : ((after (exec .resumePort (acting [0x48000000, 0, 0, 0]
    (State.reset.setPort .a { State.reset.port .a with state := .stopped })))).port .a).state = .active := by decide
theorem test_clearFlags : ((after (exec .clearFlags (acting [0x50000004, 0, 0, 0]
    (State.reset.setPort .a { State.reset.port .a with flags := 3 })))).port .a).flags = 2 := by decide
theorem test_ackFault : (after (exec .ackFault (acting [0x59000000, 0, 0, 0] State.reset))).mgmt.lastResult =
    ⟨.badIndex, none, 0⟩ := by decide
theorem test_clearOverflow : (after (exec .clearOverflow (acting [0x60000000, 0, 0, 0] { State.reset with
    faults := { State.reset.faults with overflow := 9 } }))).faults.overflow = 0 := by decide
theorem test_scrubHold : (after (exec .scrubHold (acting [0x68000000, 0, 0, 0] (scrubbing 8)))).mgmt.lastResult =
    ⟨.done, some 3, 0⟩ := by decide
theorem test_scrubResume : (after (exec .scrubResume (acting [0x70000000, 0, 0, 0] (scrubbing 8)))).mgmt.lastResult =
    ⟨.wrongState, none, 0⟩ := by decide
theorem test_softReset : after (exec .softReset (acting [0x78000000, 0, 0, 0] (with3 heldA))) = State.reset := by decide
theorem test_frameOpen : (after (exec .frameOpen State.reset)).mgmt.frame = .selector := by decide
theorem test_managementClockPeriod : (after (exec (.managementClockPeriod true) { State.reset with
    mgmt := { State.reset.mgmt with select := true, frame := .selector, bitCount := 7, selector := 0x20 } })).mgmt.selector =
      0x41 := by decide

/-! ## States that meet the hypotheses of the obligations -/

/-- The quiet states the witnesses start from meet the structural hypotheses. -/
theorem witness_quiet : noGrantDue State.reset ∧ noGrantDue (with3 heldA) ∧ oldestUnsettled (with3 heldA) ∧
    engineMatches (with3 heldA) ∧ noCandidate (with3 heldA) :=
  ⟨noGrant_of (by decide), noGrant_of (by decide), oldest_of (by decide), engine_of (by decide), quiet_of (by decide)⟩

theorem witness_StepRunsFrontCommand : step { State.reset with pending := [.frameOpen] } = exec .frameOpen State.reset := rfl

theorem witness_PowerOnResetGivesResetValues : State.reset.porst = false ∧ { State.reset with porst := true }.porst = true := by
  decide

/-- A bound write waiting at port A, beside a burst under way. -/
def resetting : State :=
  busy (pendingA [entryAtAcceptance (at1005 .write) (.admitted [0x8005] [15] false (some 3))] (with3 { heldA with inFlight := 1 }))

theorem witness_PortResets : (resetting.port .a).line = false ∧ engineMatches resetting ∧
    (resetting.win 3).phase ≠ .draining ∧ (resetting.port .a).pending.countP (fun e => discardedBoundTo 3 e) = 1 ∧
    (lastPeriod.port .a).line = false ∧ engineMatches lastPeriod ∧ running lastPeriod ∧
    lastPeriod.setPort .a { lastPeriod.port .a with pending := [] ++ [] } =
      with3 { heldA with inFlight := 1 } :=
  ⟨by decide, engine_of (by decide), by decide, by decide, by decide, engine_of (by decide), by decide, by decide⟩

/-- An idle SRAM, a window in DRAINING with the scrub flag whose last access the assertion discards. -/
theorem witness_PortResets_draining :
    engineMatches (pendingA [entryAtAcceptance (at1005 .write) (.admitted [0x8005] [15] false (some 3))]
      (with3 { heldA with phase := .draining, scrub := true, inFlight := 1 })) ∧
    (after (exec (.portResetAssert .a ⟨[], .youngestFirst⟩) (pendingA [entryAtAcceptance (at1005 .write)
      (.admitted [0x8005] [15] false (some 3))]
      (with3 { heldA with phase := .draining, scrub := true, inFlight := 1 })))).seq.burst.isSome = true :=
  ⟨engine_of (by decide), by decide⟩

theorem witness_PortResetRelease : ((State.reset.setPort .a (State.reset.port .a).resetLine).port .a).line = true := by decide

/-- An exact SOFT_RESET frame. -/
def softAction (s : State) : State := acting [0x78000000, 0, 0, 0] s

theorem witness_SoftResetBegins :
    (actionStands (softAction State.reset) 15 ∧ (softAction State.reset).softReset = false ∧
      (softAction State.reset).seq.burst = none) ∧
    (actionStands (softAction writing) 15 ∧ (softAction writing).softReset = false ∧
      (softAction writing).seq.burst.map (·.source) = some (.port .a)) ∧
    (actionStands (softAction (scrubbing 8)) 15 ∧ (softAction (scrubbing 8)).softReset = false ∧
      (softAction (scrubbing 8)).seq.burst.map (·.source) = some .scrub) ∧
    (actionStands (softAction { writing with softReset := true }) 15 ∧
      (softAction { writing with softReset := true }).softReset = true) := by decide

/-- The engine at a fill matches its record. -/
theorem witness_SoftResetBegins_scrub : engineMatches (softAction (scrubbing 8)) :=
  ⟨⟨fun h => (by cases h), fun h => (by cases h)⟩, fun h => (by cases h)⟩

theorem witness_SoftResetEndsAtTheCompletion : { writing with softReset := true }.softReset = true ∧
    { writing with softReset := true }.seq.burst.isSome = true := by decide

/-- The write under way is answered TRIMMED and the one behind it ABORTED. -/
theorem test_softResetEnd_answers : ((after (exec .softResetEnd { writing.setPort .a { writing.port .a with
    pending := (writing.port .a).pending ++ [entryAtAcceptance (at1005 .write) .routed] } with softReset := true })).port
      .a).sent = [⟨.trimmed, none, []⟩, ⟨.aborted, none, []⟩] := by decide

/-- A port state in which no access is accepted: the pending list is full. -/
def full : State := pendingA [entryAtAcceptance (at1005 .read) .routed, entryAtAcceptance (at1005 .read) .routed] State.reset

theorem witness_OfferNotAcceptedChangesNothing : ¬ accepts full .a .read ∧
    ¬ accepts { State.reset with porst := true } .a .write ∧ ¬ accepts { State.reset with softReset := true } .a .read ∧
    ¬ accepts (State.reset.setPort .a { State.reset.port .a with discard := 1 }) .a .write := by decide

theorem witness_AdmittedAccessIsBound :
    (Instr.acceptDataAccess .a (at1005 .write)).wellFormed = true ∧ accepts (busy (with3 heldA)) .a .write ∧
      ((busy (with3 heldA)).port .a).state = .active ∧ (busy (with3 heldA)).seq.burst.isSome = true ∧
      oldestUnsettled (busy (with3 heldA)) ∧
      admission .a (at1005 .write) (busy (with3 heldA)) = .admitted [0x8005] [15] false (some 3) ∧
      admission .a (at1005 .write) (with3 { heldA with lanePolicy := .trim, writeLanes := 1 }) =
        .admitted [0x8005] [1] true (some 3) ∧
      admission .a (at1005 .write) (with3 { heldA with lanePolicy := .trim, writeLanes := 0 }) = .allAborted ∧
      noGrantDue (with3 { heldA with lanePolicy := .trim, writeLanes := 0 }) ∧
      oldestUnsettled (with3 { heldA with lanePolicy := .trim, writeLanes := 0 }) :=
  ⟨by decide, by decide, by decide, by decide, oldest_of (by decide), by decide, by decide, by decide,
    noGrant_of (by decide), oldest_of (by decide)⟩

/-- With an idle SRAM: a WRITE, and a READ behind an older entry. -/
theorem witness_AdmittedAccessIsBound_idle :
    (noGrantDue (with3 heldA) ∧ accepts (with3 heldA) .a .write ∧ (with3 heldA).seq.burst = none ∧
      admission .a (at1005 .write) (with3 heldA) = .admitted [0x8005] [15] false (some 3)) ∧
    (noGrantDue (routing 4 [] (with3 heldA)) ∧ accepts (routing 4 [] (with3 heldA)) .a .read ∧
      ((routing 4 [] (with3 heldA)).port .a).pending ≠ [] ∧ oldestUnsettled (routing 4 [] (with3 heldA)) ∧
      admission .a (at1005 .read) (routing 4 [] (with3 heldA)) = .admitted [0x8005] [] false (some 3)) :=
  ⟨⟨noGrant_of (by decide), by decide, by decide, by decide⟩,
    ⟨noGrant_of (by decide), by decide, by decide, oldest_of (by decide), by decide⟩⟩

theorem witness_AdmittedReadIsGrantedAtOnce :
    (Instr.acceptDataAccess .a (at1005 .read)).wellFormed = true ∧ accepts (with3 heldA) .a .read ∧
      ((with3 heldA).port .a).state = .active ∧ ((with3 heldA).port .a).pending = [] ∧
      (with3 heldA).seq.burst = none ∧ noCandidate (with3 heldA) ∧
      admission .a (at1005 .read) (with3 heldA) = .admitted [0x8005] [] false (some 3) :=
  ⟨by decide, by decide, by decide, by decide, by decide, quiet_of (by decide), by decide⟩

/-- Port A STOPPED. -/
def stoppedA : State := State.reset.setPort .a { State.reset.port .a with state := .stopped }

theorem witness_RefusedAtAcceptance :
    (accepts State.reset .a .read ∧ oldestUnsettled State.reset ∧ noGrantDue State.reset ∧
      (State.reset.port .a).state = .active ∧
      admission .a (at1005 .read) State.reset = .refused .noWindow none) ∧
    (accepts stoppedA .a .write ∧ oldestUnsettled stoppedA ∧ noGrantDue stoppedA ∧ (stoppedA.port .a).state = .stopped) ∧
    (Instr.acceptControlAccess .a (control .write 4)).wellFormed = true ∧
    ((Instr.acceptControlAccess .a (control .read 11)).wellFormed = true ∧ wellShaped (control .read 11) = false) :=
  ⟨⟨by decide, oldest_of (by decide), noGrant_of (by decide), by decide, by decide⟩,
    ⟨by decide, oldest_of (by decide), noGrant_of (by decide), by decide⟩, by decide, by decide⟩

theorem witness_WellShapedControlAccesses : wellShaped ⟨.write, 4194288, 2, [0, 0]⟩ = true ∧
    wellShaped (control .write 0) = false ∧ wellShaped (control .write 1) = false ∧ wellShaped (control .write 2) = true ∧
    wellShaped (control .write 7) = true ∧ wellShaped (control .write 8) = false ∧ wellShaped (control .read 7) = false ∧
    wellShaped (control .read 8) = true ∧ wellShaped (control .read 10) = true ∧ wellShaped (control .read 11) = false := by
  decide

theorem witness_ControlAccessIsRoutedOrServed :
    ((Instr.acceptControlAccess .a (control .write 7)).wellFormed = true ∧ accepts State.reset .a .write ∧
      (State.reset.port .a).state = .active ∧ oldestUnsettled State.reset ∧ wellShaped (control .write 7) = true) ∧
    ((Instr.acceptControlAccess .a (control .read 9)).wellFormed = true ∧ accepts stoppedA .a .read ∧
      oldestUnsettled stoppedA ∧ (control .read 9).address.toNat = 4194297) ∧
    (control .read 10).address.toNat = 4194298 ∧ State.reset.replies.get .a = [] ∧
    accepts (routing 4 [] State.reset) .a .read ∧ oldestUnsettled (routing 4 [] State.reset) ∧
    ({ State.reset with replies := State.reset.replies.set .b [⟨2, .full⟩, ⟨2, .duplicate⟩] }.replies.get .b) =
      [⟨2, .full⟩, ⟨2, .duplicate⟩] :=
  ⟨⟨by decide, by decide, by decide, oldest_of (by decide), by decide⟩,
    ⟨by decide, by decide, oldest_of (by decide), by decide⟩, by decide, by decide, by decide, oldest_of (by decide),
    by decide⟩

set_option maxRecDepth 20000 in
theorem witness_AdmissionRefusesByPhase : State.reset.scopes.get .a = [] ∧ ¬ mapped State.reset 0x1005 ∧
    (∀ i, ¬ (holdsGrant (State.reset.win i) .a ∧ inRange (State.reset.win i) 0x1005)) ∧
    matchedBy (with3 { heldA with phase := .arming }) .a 0x1000 3 ∧ matchedBy (with3 { heldA with phase := .lapsed }) .a 0x100F 3 ∧
    matchedBy (with3 { heldA with phase := .draining }) .a 0x1005 3 ∧
    matchedBy (with3 { heldA with phase := .scrubWait }) .a 0x1005 3 ∧
    matchedBy (with3 { heldA with phase := .scrubbing }) .a 0x1005 3 :=
  ⟨by decide, by decide, by decide, by decide, by decide, by decide, by decide, by decide⟩

set_option maxRecDepth 20000 in
theorem witness_AdmissionUnderAGrant : (with3 heldA).scopes.get .a = [] ∧ ¬ mapped (with3 heldA) 0x1005 ∧
    matchedBy (with3 heldA) .a 0x1005 3 ∧ (∀ j, ¬ fencedBy (with3 heldA) .a 0x1005 j) ∧
    ((with3 heldA).win 3).phase = .held ∧ ((with3 heldA).win 3).target = some 0x8000 ∧
    matchedBy (with3 { heldA with phase := .taper }) .a 0x1005 3 ∧
    (∀ j, ¬ fencedBy (with3 { heldA with phase := .taper }) .a 0x1005 j) :=
  ⟨by decide, by decide, by decide, by decide, by decide, by decide, by decide, by decide⟩

/-- A FENCE of port A over the same words, removing both rights and lane 0. -/
def fenced : State :=
  (with3 heldA).setWin 4 { heldA with kind := .fence, target := none, rights := 3, writeLanes := 1 }

set_option maxRecDepth 20000 in
/-- What that FENCE takes. -/
theorem fenced_takes : fencesTake fenced .a 0x1005 3 1 := by
  have only : ∀ j, fencedBy fenced .a 0x1005 j ↔ j = 4 := by decide
  have w : (fenced.win 4).rights = 3 ∧ (fenced.win 4).writeLanes = 1 := by decide
  constructor <;> intro n <;> constructor
  · exact fun h => ⟨4, (only 4).mpr rfl, by rw [w.1]; exact h⟩
  · rintro ⟨j, hj, h⟩; rw [(only j).mp hj, w.1] at h; exact h
  · exact fun h => ⟨4, (only 4).mpr rfl, by rw [w.2]; exact h⟩
  · rintro ⟨j, hj, h⟩; rw [(only j).mp hj, w.2] at h; exact h

/-- Without an acting FENCE nothing is taken. -/
theorem noFence_takes {s : State} {p : Port} {addr : PortAddr} (h : ∀ j, ¬ fencedBy s p addr j) :
    fencesTake s p addr 0 0 :=
  ⟨fun n => ⟨fun e => by simp at e, fun ⟨j, hj, _⟩ => (h j hj).elim⟩,
    fun n => ⟨fun e => by simp at e, fun ⟨j, hj, _⟩ => (h j hj).elim⟩⟩

/-- Port A's stack with one frame over window 3. -/
def framedOver (orphan : Bool) (ceiling : Rights) : State :=
  { with3 heldA with scopes := State.reset.scopes.set .a [⟨3, ceiling, 0x1000, 4, orphan⟩] }

set_option maxRecDepth 20000 in
theorem witness_AFenceRemovesRightsAndLanes : scopeAllows fenced .a 0x1005 3 ∧ ¬ mapped fenced 0x1005 ∧
    matchedBy fenced .a 0x1005 3 ∧ (fenced.win 3).phase = .held ∧ fencesTake fenced .a 0x1005 3 1 :=
  ⟨Or.inl (by decide), by decide, by decide, by decide, fenced_takes⟩

set_option maxRecDepth 20000 in
/-- The same under a live frame, over a GRANT in TAPER, under TRIM, with no FENCE. -/
theorem witness_AFenceRemovesRightsAndLanes_scoped :
    scopeAllows (framedOver false 1) .a 0x100F 1 ∧ matchedBy (framedOver false 1) .a 0x100F 3 ∧
    fencesTake (framedOver false 1) .a 0x100F 0 0 ∧
    matchedBy (fenced.setWin 3 { heldA with phase := .taper, lanePolicy := .trim }) .a 0x1005 3 :=
  ⟨Or.inr ⟨⟨3, 1, 0x1000, 4, false⟩, [], by decide⟩, by decide, noFence_takes (by decide), by decide⟩

/-- The fixed map with READ for port A in every granule. -/
def mappedState (e : MapEntry) : State :=
  { State.reset with map := ⟨true, Vector.replicate 16 (PerPort.all e)⟩ }

set_option maxRecDepth 20000 in
theorem witness_AdmissionByTheFixedMap : (mappedState .read).scopes.get .a = [] ∧ mapped (mappedState .read) 0x3FFF ∧
    ¬ mapped (mappedState .read) 0x4000 ∧ (∀ j, ¬ fencedBy (mappedState .read) .a 0x3FFF j) ∧
    (15 : Fin 16).val = (0x3FFF : PortAddr).toNat / 1024 ∧
    (mappedState .none).map.entries[15].get .a = .none ∧ (mappedState .readWrite).map.entries[15].get .a = .readWrite ∧
    scopeAllows (mappedState .read) .a 0x3FFF 3 ∧ fencesTake (mappedState .read) .a 0x3FFF 0 0 :=
  ⟨by decide, by decide, by decide, by decide, by decide, by decide, by decide, Or.inl (by decide),
    noFence_takes (by decide)⟩

set_option maxRecDepth 20000 in
theorem witness_AdmissionUnderAScope : (framedOver true 3).scopes.get .a = [⟨3, 3, 0x1000, 4, true⟩] ∧
    ¬ inRange ((framedOver false 3).win 3) 0x1010 ∧
    (inRange ((framedOver false 1).win 3) 0x100F ∧ ¬ mapped (framedOver false 1) 0x100F ∧ matchedBy (framedOver false 1) .a 0x100F 3 ∧
      ((framedOver false 1).win 3).phase = .held ∧ hasWrite 1 = false ∧ hasRead 2 = false) ∧
    (∀ j, ¬ fencedBy (framedOver false 1) .a 0x100F j) :=
  ⟨by decide, by decide, ⟨by decide, by decide, by decide, by decide, by decide, by decide⟩, by decide⟩

/-- A two-beat write waiting for data with one beat received. -/
def halfWrite (dec : Decision) : Entry :=
  { entryAtAcceptance ⟨.write, 0x1004, 2, [15, 15]⟩ dec with received := some 1, kept := [5] }

theorem witness_WriteDataBeatCases :
    (running State.reset ∧ (State.reset.port .a).state ≠ .inReset ∧ noGrantDue State.reset ∧
      (∀ e ∈ (State.reset.port .a).pending, e.progress ≠ .waitingData)) ∧
    0 < ((State.reset.setPort .a { State.reset.port .a with discard := 1 }).port .a).discard ∧
    ¬ running { State.reset with porst := true } ∧
    (entryAtAcceptance ⟨.write, 0x1004, 2, [15, 15]⟩ .routed).progress = .waitingData ∧
    (entryAtAcceptance ⟨.write, 0x1004, 2, [15, 15]⟩ .routed).received = some 0 :=
  ⟨⟨by decide, by decide, noGrant_of (by decide), by decide⟩, by decide, by decide, by decide, by decide⟩

/-- A READY read of port A. -/
def readyRead : Entry :=
  { entryAtAcceptance (at1005 .read) (.admitted [0x8005] [] false none) with progress := .ready }

/-- An entry of port A behind a READY read. -/
def behindRead (e : Entry) : State := pendingA [readyRead, e] (with3 heldA)

theorem witness_TheLastBeatMovesTheWriteOn : running (behindRead (halfWrite .allAborted)) ∧
    ((behindRead (halfWrite .allAborted)).port .a).state ≠ .inReset ∧
    ((behindRead (halfWrite .allAborted)).port .a).discard = 0 ∧
    stands (behindRead (halfWrite .allAborted)) .a ⟨[readyRead], halfWrite .allAborted, []⟩ ∧
    oldestWaits ⟨[readyRead], halfWrite .allAborted, []⟩ ∧
    (halfWrite .allAborted).received = some 1 ∧ (halfWrite (.refused .noWindow)).access.beats = 2 ∧
    (halfWrite (.admitted [0x8004, 0x8005] [15, 15] false (some 3))).access.kind = .write := by
  unfold stands oldestWaits; decide

/-- The routed control write at word `n` as port A's only entry. -/
def slotAt (n : Nat) (kept : List Word) : Slot := ⟨[], routedAt n kept, []⟩

/-- The last beat of the routed control write at word `n` is due at port A. -/
theorem lastBeat_of {n : Nat} {kept : List Word} {s : State} (hn : n < 16) (hr : running s)
    (hs : (s.port .a).state ≠ .inReset) (hd : (s.port .a).discard = 0) :
    lastBeatDue (routing n kept s) .a n (slotAt n kept) kept := by
  refine ⟨hr, ?_, ?_, ⟨?_, by simp [slotAt]⟩, ⟨rfl, by simp [slotAt]⟩, rfl, rfl, ?_, rfl, rfl, rfl⟩
  · simpa [routing, pendingA] using hs
  · simpa [routing, pendingA] using hd
  · simp [routing, pendingA, slotAt]
  · simp only [slotAt, routedAt, entryAtAcceptance, BitVec.toNat_ofNat]; omega

/-- The last beat is due behind a READY read, and before a settled one. -/
theorem witness_SecondEntry :
    lastBeatDue (behindRead (routedAt 4 [])) .a 4 ⟨[readyRead], routedAt 4 [], []⟩ [] ∧
    lastBeatDue (pendingA [routedAt 6 [], { readyRead with progress := .settled, response := some ⟨.ok, none, [0]⟩ }]
      State.reset) .a 6
      ⟨[], routedAt 6 [], [{ readyRead with progress := .settled, response := some ⟨.ok, none, [0]⟩ }]⟩ [] := by
  unfold lastBeatDue stands oldestWaits; decide

/-- Port A without a ticket. -/
def noTickets (s : State) : State := { s with tickets := s.tickets.set .a 0 }

/-- An unread reply with tag 5 at port A. -/
def replied (s : State) : State :=
  { s with replies := s.replies.set .a [⟨5, .full⟩], tickets := s.tickets.set .a 3 }

theorem witness_NewRequest :
    lastBeatDue (routing 0 [0x5FD84000] State.reset) .a 0 (slotAt 0 [0x5FD84000]) [0x5FD84000] ∧
    lastBeatDue (routing 0 [0x5FD84000] (noTickets State.reset)) .a 0 (slotAt 0 [0x5FD84000]) [0x5FD84000] ∧
    lastBeatDue (routing 0 [0x5FD84000] (replied State.reset)) .a 0 (slotAt 0 [0x5FD84000]) [0x5FD84000] ∧
    (noTickets State.reset).tickets.get .a = 0 ∧ ¬ tagFree (replied State.reset) .a 5 ∧ tagFree State.reset .a 5 ∧
    (0x5FD84000 : Word).extractLsb' 28 4 = 5 :=
  ⟨lastBeat_of (by decide) (by decide) (by decide) (by decide),
    lastBeat_of (by decide) (by decide) (by decide) (by decide),
    lastBeat_of (by decide) (by decide) (by decide) (by decide), by decide, by decide, by decide, by decide⟩

/-- A queue with a request of port A with tag 5. -/
def queued : State := { State.reset with requests := [⟨.b, 5, .extend 3, 0⟩, ⟨.a, 5, .extend 3, 0⟩] }

theorem witness_Withdraw : lastBeatDue (routing 3 [] queued) .a 3 (slotAt 3 []) [] ∧
    lastBeatDue (routing 3 [] State.reset) .a 3 (slotAt 3 []) [] ∧
    (∀ x ∈ queued.requests.take 1, ¬ (x.port = .a ∧ x.tag = 5)) :=
  ⟨lastBeat_of (by decide) (by decide) (by decide) (by decide),
    lastBeat_of (by decide) (by decide) (by decide) (by decide), by decide⟩

theorem witness_PortRenew : lastBeatDue (routing 2 [] (with3 heldA)) .a 2 (slotAt 2 []) [] ∧
    lastBeatDue (routing 2 [] (with3 { heldA with renewBudget := 0 })) .a 2 (slotAt 2 []) [] ∧
    lastBeatDue (routing 2 [] (noTickets (with3 { heldA with renewBudget := 0 }))) .a 2 (slotAt 2 []) [] ∧
    lastBeatDue (routing 2 [] (replied (with3 { heldA with renewBudget := 0 }))) .a 2 (slotAt 2 []) [] ∧
    holdsGrant ((with3 heldA).win 3) .a ∧ ¬ holdsGrant ((with3 heldA).win 3) .b ∧ ¬ holdsGrant ((with3 heldA).win 31) .a ∧
    holdsGrant { heldA with phase := .arming } .a ∧ holdsGrant { heldA with phase := .lapsed } .a ∧
    holdsGrant { heldA with phase := .scrubbing } .a ∧ holdsGrant { heldA with phase := .taper, renewBudget := 15 } .a ∧
    32 ≤ ((0x20 : Word).extractLsb' 0 6).toNat ∧ ((0x1F : Word).extractLsb' 0 6).toNat = (31 : WinIdx).val :=
  ⟨lastBeat_of (by decide) (by decide) (by decide) (by decide),
    lastBeat_of (by decide) (by decide) (by decide) (by decide),
    lastBeat_of (by decide) (by decide) (by decide) (by decide),
    lastBeat_of (by decide) (by decide) (by decide) (by decide),
    by decide, by decide, by decide, by decide, by decide, by decide, by decide, by decide, by decide⟩

theorem witness_Release : lastBeatDue (routing 4 [] (with3 heldA)) .a 4 (slotAt 4 []) [] ∧
    lastBeatDue (routing 4 [] (with3 { heldA with ports := 3 })) .a 4 (slotAt 4 []) [] ∧
    lastBeatDue (routing 4 [] (with3 { heldA with phase := .draining, inFlight := 1 })) .a 4 (slotAt 4 []) [] ∧
    engineMatches (routing 4 [] (with3 heldA)) ∧ (∀ q ∈ [Port.b, .c, .d], hasPort heldA.ports q = false) ∧
    hasPort { heldA with ports := 3 }.ports .b = true :=
  ⟨lastBeat_of (by decide) (by decide) (by decide) (by decide),
    lastBeat_of (by decide) (by decide) (by decide) (by decide),
    lastBeat_of (by decide) (by decide) (by decide) (by decide), engine_of (by decide), by decide, by decide⟩

/-- Port A's stack with `n` live frames over window 3. -/
def stacked (n : Nat) : State :=
  { with3 heldA with scopes := State.reset.scopes.set .a (List.replicate n ⟨3, 1, 0x1000, 4, false⟩) }

theorem witness_ScopePush : lastBeatDue (routing 5 [] (stacked 8)) .a 5 (slotAt 5 []) [] ∧
    lastBeatDue (routing 5 [] (stacked 7)) .a 5 (slotAt 5 []) [] ∧
    lastBeatDue (routing 5 [] (framedOver true 3)) .a 5 (slotAt 5 []) [] ∧
    8 ≤ ((stacked 8).scopes.get .a).length ∧ ((stacked 7).scopes.get .a).length < 8 ∧
    holdsGrant ((stacked 7).win 3) .a ∧ ((stacked 7).win 3).phase = .held ∧
    narrower ((stacked 7).win 3) 1 ⟨3, 1, 0x1000, 4, false⟩ ∧ ¬ narrower ((stacked 7).win 3) 3 ⟨3, 1, 0x1000, 4, false⟩ ∧
    (0x003 : Word).extractLsb' 8 2 = 0 ∧ 32 ≤ ((0x13F : Word).extractLsb' 0 6).toNat :=
  ⟨lastBeat_of (by decide) (by decide) (by decide) (by decide),
    lastBeat_of (by decide) (by decide) (by decide) (by decide),
    lastBeat_of (by decide) (by decide) (by decide) (by decide), by decide, by decide, by decide, by decide,
    by decide, by decide, by decide, by decide⟩

theorem witness_ScopePopAndClearFlags : lastBeatDue (routing 6 [] State.reset) .a 6 (slotAt 6 []) [] ∧
    lastBeatDue (routing 6 [] (framedOver true 3)) .a 6 (slotAt 6 []) [] ∧
    lastBeatDue (routing 6 [] (framedOver false 3)) .a 6 (slotAt 6 []) [] ∧
    lastBeatDue (routing 7 [] State.reset) .a 7 (slotAt 7 []) [] :=
  ⟨lastBeat_of (by decide) (by decide) (by decide) (by decide),
    lastBeat_of (by decide) (by decide) (by decide) (by decide),
    lastBeat_of (by decide) (by decide) (by decide) (by decide),
    lastBeat_of (by decide) (by decide) (by decide) (by decide)⟩

theorem witness_ControlWriteRowsNeedTheirBeat : (∀ e ∈ (State.reset.port .a).pending, e.progress ≠ .waitingData) ∧
    ¬ running { State.reset with softReset := true } ∧
    stands (routing 4 [] State.reset) .a (slotAt 4 []) ∧ oldestWaits (slotAt 4 []) ∧
    (4194288 ≤ (slotAt 4 []).entry.access.address.toNat ∧
      (slotAt 4 []).entry.access.address.toNat ≠ 4194288 + 5) ∧
    stands (behindRead (halfWrite .routed)) .a ⟨[readyRead], halfWrite .routed, []⟩ ∧
    (entryAtAcceptance ⟨.write, 4194288, 2, [0, 0]⟩ .routed).received = some 0 ∧
    (halfWrite .allAborted).decision ≠ .routed := by
  unfold stands oldestWaits; decide

/-- A fault record of port A with a reason. -/
def faultA (reason : Reason) : FaultRecord := ⟨reason, .a, .read, 0, none, 0, 0, none, 1⟩

/-- A recorder with every slot HELD by one key. -/
def allHeld : FaultRecorder := ⟨Vector.replicate 8 (some (faultA .lapsed)), 255⟩

theorem witness_TheFaultRecorderTakesTheFirstCase :
    (allHeld.slots[(0 : Fin 8)] = some (faultA .lapsed) ∧ sameKey (faultA .lapsed) (faultA .lapsed)) ∧
    (∀ n : Fin 8, FaultRecorder.powerOn.slots[n] = none) ∧
    (∀ n : Fin 8, allHeld.slots[n] ≠ none) ∧ ¬ sameKey (faultA .lapsed) (faultA .noWindow) := by decide

theorem witness_DeadlinesAndDurations : remaining 0 (2 ^ 31) = 2 ^ 31 ∧ remaining 0 1 = 1 ∧ remaining 7 7 = 0 ∧
    deadlineReached 0 (2 ^ 31) = false ∧ duration 14 3 = 2048000 ∧ duration 1 0 = 1 ∧
    (after (exec .frameOpen State.reset)).mgmt.select = true := by decide

theorem witness_IdentIsFixed : registerOf 0xFF = none ∧ registerOf 0x09 = none ∧ registerOf 0x60 = none := by decide

/-- Port A's two-beat write at its last LCLK period, one beat received. -/
def expiring (dec : Decision) : Entry := { halfWrite dec with deadlineCount := some 1 }

theorem witness_DataDeadline : running (pendingA [expiring .routed] (with3 heldA)) ∧
    stands (pendingA [expiring .routed] (with3 heldA)) .a ⟨[], expiring .routed, []⟩ ∧
    stands (behindRead (expiring .allAborted)) .a ⟨[readyRead], expiring .allAborted, []⟩ ∧
    stands (pendingA [expiring (.refused .noWindow), readyRead] State.reset) .a
      ⟨[], expiring (.refused .noWindow), [readyRead]⟩ ∧
    (expiring (.admitted [0x8004, 0x8005] [15, 15] false (some 3))).deadlineCount = some 1 ∧
    (expiring .routed).received = some 1 ∧ (expiring .routed).access.beats = 2 ∧
    (pendingA [expiring .routed] (with3 heldA)).clock.run = false ∧
    (∀ q ∈ [Port.b, .c, .d], ((pendingA [expiring .routed] (with3 heldA)).port q).pending = []) := by
  unfold stands; decide

/-- A DRAINING window with the scrub flag whose last bound access times out. -/
theorem witness_DataDeadline_draining :
    engineMatches (with3 { heldA with phase := .draining, scrub := true, inFlight := 1 }) ∧
    (unbound 3 (with3 { heldA with phase := .draining, scrub := true, inFlight := 1 })).scrub.progress =
      some ⟨3, 0, 16⟩ := ⟨engine_of (by decide), by decide⟩

/-- The clock running, `n` LCLK periods to the tick. -/
def clocked (n : Nat) : State :=
  { State.reset with clock := { State.reset.clock with run := true, prescaler := 25000 - n } }

theorem witness_LclkPeriodsAndTicksCount : (running (clocked 2) ∧ noGrantDue (clocked 2) ∧
      ¬ ((clocked 2).clock.run = true ∧ (clocked 2).clock.periodDivisor ≤ (clocked 2).clock.prescaler + 1)) ∧
    (running (clocked 1) ∧ noGrantDue (clocked 1) ∧ (clocked 1).clock.run = true ∧
      (clocked 1).clock.periodDivisor ≤ (clocked 1).clock.prescaler + 1 ∧ (clocked 1).clock.expiry = []) :=
  ⟨⟨by decide, noGrant_of (by decide), by decide⟩, ⟨by decide, noGrant_of (by decide), by decide, by decide, by decide⟩⟩

/-- Two windows whose deadlines the next tick reaches, and one it does not. -/
def twoExpiries : State :=
  let second : Window := { heldA with phase := .taper, ports := 2, autoRetire := true, deadline := some 1 }
  let s := ((ticking { heldA with taper := 2 }).setWin 4 second).setWin 5 { heldA with ports := 4, deadline := some 2 }
  { s with clock := { s.clock with expiry := [⟨3, 1⟩, ⟨4, 1⟩, ⟨5, 2⟩] } }

theorem witness_Expiries : running twoExpiries ∧ engineMatches twoExpiries ∧ twoExpiries.clock.run = true ∧
    twoExpiries.clock.periodDivisor ≤ twoExpiries.clock.prescaler + 1 ∧
    twoExpiries.clock.expiry = [⟨3, 1⟩, ⟨4, 1⟩] ++ [⟨5, 2⟩] ∧
    (∀ e ∈ [(⟨3, 1⟩ : Expiry), ⟨4, 1⟩], e.deadline = twoExpiries.clock.time + 1 ∧
      ((twoExpiries.win e.window).phase = .arming ∨ (twoExpiries.win e.window).phase = .held ∨
        (twoExpiries.win e.window).phase = .taper)) ∧
    ([(⟨3, 1⟩ : Expiry), ⟨4, 1⟩].map (·.window)).Nodup ∧
    (∀ e ∈ [(⟨5, 2⟩ : Expiry)], deadlineReached (twoExpiries.clock.time + 1) e.deadline = false) ∧
    ((after (exec .leaseTick twoExpiries)).win 3).phase = .taper ∧
    (after (exec .leaseTick twoExpiries)).win 4 = Window.cleared :=
  ⟨by decide, engine_of (by decide), by decide, by decide, by decide, by decide, by decide, by decide, by decide,
    by decide⟩

/-- A READY read at port A, and the Scrub Engine RUNNING with a share count. -/
def competing (count : Nat) (ready : Bool) : State :=
  { (if ready then pendingA [{ entryAtAcceptance (at1005 .read) (.admitted [0x8005] [] false none) with progress := .ready }]
      else id) (with3 { heldA with phase := .scrubbing }) with
    scrub := ⟨.running, some ⟨3, 12, 4⟩, [], 9⟩, seq := ⟨.d, count, none⟩ }

theorem witness_TheGrantDecision : noGrantDue State.reset ∧ running (competing 4 true) ∧
    (competing 4 true).seq.burst = none ∧ (competing 4 true).scrub.progress = some ⟨3, 12, 4⟩ ∧
    ((competing 4 true).win 3).target = some 0x8000 ∧
    (1 ≤ (competing 4 true).clock.share.toNat ∧ (competing 4 true).clock.share.toNat ≤ (competing 4 true).seq.shareCount) ∧
    (∀ p ∈ allPorts, portCandidate (competing 0 false) p = false) ∧
    ¬ (1 ≤ (competing 3 true).clock.share.toNat ∧ (competing 3 true).clock.share.toNat ≤ (competing 3 true).seq.shareCount) ∧
    ((competing 3 true).port .a).pending.head?.map (·.progress) = some .ready :=
  ⟨noGrant_of (by decide), by decide, by decide, by decide, by decide, by decide, by decide, by decide, by decide⟩

theorem witness_PortBurstCompletes : (writing.seq.burst.map (·.source)) = some (.port .a) ∧ writing.softReset = false ∧
    engineMatches writing ∧ (writing.port .a).pending.length = 1 ∧ (writing.win 3).phase ≠ .draining ∧
    ((writing.setWin 3 { heldA with phase := .draining, scrub := true, inFlight := 1 }).win 3).inFlight = 1 ∧
    ((pendingA ((writing.port .a).pending ++ [readyRead]) writing).port .a).pending.length = 2 ∧
    (busy (pendingA [{ entryAtAcceptance (at1005 .read) (.admitted [0] [] false none) with
      progress := .executing, dropped := true }] State.reset)).seq.burst.map (·.bound) = some none :=
  ⟨by decide, by decide, engine_of (by decide), by decide, by decide, by decide, by decide, by decide⟩

theorem witness_AWriteBurstWritesItsLanes : (scrubbing 8).seq.burst.map (fun b => (b.kind, b.addrs.Nodup = true, b.lanes.length,
    b.data.length, b.addrs.length)) = some (.write, (true : Prop), 4, 4, 4) := by
  simp [scrubbing]

theorem witness_ScrubBurstCompletes : (scrubbing 8).seq.burst.map (fun b => (b.source, b.kind)) = some (.scrub, .write) ∧
    (scrubbing 8).scrub.progress = some ⟨3, 8, 8⟩ ∧ (scrubbing 4).scrub.progress = some ⟨3, 12, 4⟩ ∧
    (scrubbing 4).scrub.list = [] ∧
    { scrubbing 4 with scrub := { (scrubbing 4).scrub with list := [6] } }.scrub.state ≠ .idle := by decide

theorem witness_DrainEnd : engineMatches (with3 { heldA with phase := .draining }) ∧
    engineMatches (with3 { heldA with phase := .draining, scrub := true }) ∧
    engineMatches (scrubbing 8) ∧ ¬ ((State.reset.win 3).phase = .draining ∧ (State.reset.win 3).inFlight = 0) :=
  ⟨engine_of (by decide), engine_of (by decide), ⟨by decide, by decide⟩, by decide⟩

theorem witness_FramesOpenAndShift : State.reset.mgmt.select = false ∧ State.reset.mgmt.frame = .closed ∧
    State.reset.porst = false ∧ (framed 5 127 0 State.reset).mgmt.bitCount < payloadLength 5 ∧
    (framed 5 128 0 State.reset).mgmt.bitCount = payloadLength 5 ∧
    (framed 5 129 0 State.reset).mgmt.bitCount = payloadLength 5 + 1 ∧ payloadLength 9 = 0 := by decide

theorem witness_FrameEndsWithoutUpdate : (framed 5 127 0 State.reset).mgmt.frame = .payload ∧
    (framed 5 127 0 State.reset).mgmt.bitCount ≠ payloadLength 5 ∧ registerOf 9 = none ∧
    exactFrame (framed 0 32 0 State.reset) 0 32 ∧ exactFrame (framed 0x27 128 0 State.reset) (BitVec.ofNat 8 (0x20 + 7)) 128 ∧
    actionStands (acting [0, 0, 0, 0] State.reset) 0 ∧ actionStands (acting [0x80000000, 0, 0, 0] State.reset) 16 ∧
    actionStands (acting [0xF8000000, 0, 0, 0] State.reset) 31 := by decide

theorem witness_RegisterUpdates : exactFrame (framed 2 8 0x83 State.reset) 2 8 ∧ exactFrame (framed 3 8 0 State.reset) 3 8 ∧
    exactFrame (framed 4 64 0 State.reset) 4 64 ∧ exactFrame (framed 5 128 0 State.reset) 5 128 ∧
    exactFrame (framed 6 136 0 State.reset) 6 136 ∧
    exactFrame (framed 0x13 32 0 State.reset) (BitVec.ofNat 8 (0x10 + portCode .d)) 32 := by decide

theorem witness_CreationChecksInOrder :
    creationFault (createOperands (actionRecordOf (payloadOf [0, 0, 0, 0]))) State.reset = some .badGeometry ∧
    creationFault (createOperands (actionRecordOf (payloadOf [0, 0x08020004, 0x020003F0, 0]))) State.reset = some .badEnvelope ∧
    creationFault (createOperands (actionRecordOf (payloadOf [0, 0x08020004, 0x400003F0, 0x04000000]))) State.reset =
      some .targetRange ∧
    creationFault (createOperands (actionRecordOf (payloadOf createWords))) (with3 heldA) = some .overlap ∧
    creationFault (createOperands (actionRecordOf (payloadOf createWords))) (with3 { heldA with ports := 2, scrub := true }) =
      some .targetBusy ∧
    creationFault (createOperands (actionRecordOf (payloadOf createWords))) State.reset = none := by decide

/-- Every window occupied by a FENCE. -/
def noneFree : State := { State.reset with windows := Vector.replicate 32 { heldA with kind := .fence, ports := 2 } }

set_option maxRecDepth 20000 in
theorem witness_Create : actionStands (acting createWords State.reset) 1 ∧ (State.reset.win 0).phase = .free ∧
    ((∀ j, j < 3 → ((with3 heldA).win j).phase = .free)) ∧
    creationFault (createOperands (record (acting createWords noneFree))) (acting createWords noneFree) = none ∧
    (∀ i, ((acting createWords noneFree).win i).phase ≠ .free) := by decide

/-- The GRANT_HEAD and REFUSE_HEAD frames for port A, tag 5. -/
def heading (code : Word) (s : State) : State := acting [code ||| 0x00028000, 0, 0x020003F0, 0x04000000] s

/-- One request of port A with tag 5. -/
def oneRequest (body : RequestBody) (s : State) : State := { s with requests := [⟨.a, 5, body, 0⟩] }

theorem witness_HeadActions : actionStands (heading 0x10000000 State.reset) 2 ∧
    actionStands (heading 0x18000000 State.reset) 3 ∧ (record (heading 0x10000000 State.reset)).tag = 5 ∧
    (record (heading 0x10000000 State.reset)).port = .a ∧
    creationFault (grantOperands .a 5 ⟨0x1000, 4, 3, 15, .strict, 0, 0, false⟩ (record (heading 0x10000000 State.reset)))
      State.reset = none ∧
    creationFault (grantOperands .a 5 ⟨0x1000, 3, 3, 15, .strict, 0, 0, false⟩ (record (heading 0x10000000 State.reset)))
      State.reset = some .badGeometry ∧
    holdsGrant ((heading 0x10000000 (oneRequest (.extend 3) (with3 { heldA with phase := .lapsed }))).win 3) .a ∧
    ¬ holdsGrant ((heading 0x10000000 (oneRequest (.extend 3) State.reset)).win 3) .a ∧
    (heading 0x10000000 { State.reset with requests := [⟨.b, 5, .extend 3, 0⟩] }).requests.map (·.port) = [.b] := by decide

/-- An AMEND frame of window 3 to the ports of a set. -/
def amending (ports : Word) (s : State) : State := acting [0x20600000, ports <<< 27, 0x100, 0] s

theorem witness_Amend : actionStands (amending 2 (with3 heldA)) 4 ∧ namesWindow (amending 2 (with3 heldA)) 3 ∧
    changeable ((amending 2 (with3 heldA)).win 3) ∧ (record (amending 2 (with3 heldA))).ports ≠ 0 ∧
    (record (amending 0 (with3 heldA))).ports = 0 ∧ ¬ changeable ((amending 2 State.reset).win 3) ∧
    amendCollides (amending 2 ((with3 heldA).setWin 4 { heldA with ports := 2 })) 3 ∧
    ¬ amendCollides (amending 2 (with3 heldA)) 3 := by
  refine ⟨by decide, by decide, by decide, by decide, by decide, by decide,
    ⟨by decide, 4, .b, by decide, by decide, by decide, by decide, by decide⟩, ?_⟩
  rintro ⟨-, j, p, hj, ⟨hf, -⟩, -⟩
  exact hf (by revert hj; revert j; decide)

theorem witness_RenewAndActivate : actionStands (acting [0x28600480, 0, 0, 0] (with3 heldA)) 5 ∧
    namesWindow (acting [0x28600480, 0, 0, 0] (with3 heldA)) 3 ∧
    actionStands (acting [0x30600000, 0, 0, 0] (with3 { heldA with phase := .arming, onset := 15 })) 6 ∧
    namesWindow (acting [0x33E00000, 0, 0, 0] State.reset) 31 ∧
    32 ≤ (record (acting [0x34000000, 0, 0, 0] State.reset)).index.toNat := by decide

theorem witness_Revoke : actionStands (acting [0x38600000, 0, 0, 0] (with3 heldA)) 7 ∧
    engineMatches (acting [0x38600000, 0, 0, 0] (with3 heldA)) ∧
    namesWindow (acting [0x38600000, 0, 0, 0] (with3 heldA)) 3 ∧ changeable ((with3 heldA).win 3) ∧
    ¬ changeable (State.reset.win 3) ∧ changeable { heldA with phase := .lapsed, scrub := true } :=
  ⟨by decide, engine_of (by decide), by decide, by decide, by decide, by decide⟩

theorem witness_UnwindResumeAndClearFlags : actionStands (acting [0x40180000, 0, 0, 0] State.reset) 8 ∧
    (record (acting [0x40180000, 0, 0, 0] State.reset)).port = .d ∧
    actionStands (acting [0x48000000, 0, 0, 0] stoppedA) 9 ∧
    (stoppedA.port (record (acting [0x48000000, 0, 0, 0] stoppedA)).port).state = .stopped ∧
    (State.reset.port .a).state ≠ .stopped ∧ actionStands (acting [0x50000004, 0, 0, 0] State.reset) 10 := by decide

theorem witness_AckFaultAndClearOverflow : actionStands (acting [0x58E00000, 0, 0, 0] State.reset) 11 ∧
    (record (acting [0x58E00000, 0, 0, 0] State.reset)).index.toNat = (7 : Fin 8).val ∧
    State.reset.faults.slots[(7 : Fin 8)] = none ∧ allHeld.slots[(7 : Fin 8)] ≠ none ∧
    7 < (record (acting [0x59000000, 0, 0, 0] State.reset)).index.toNat ∧
    actionStands (acting [0x60000000, 0, 0, 0] State.reset) 12 := by decide

theorem witness_ScrubHoldAndResume : actionStands (acting [0x68000000, 0, 0, 0] (scrubbing 8)) 13 ∧
    (scrubbing 8).scrub.state = .running ∧ actionStands (acting [0x70000000, 0, 0, 0] State.reset) 14 ∧
    { scrubbing 8 with scrub := { (scrubbing 8).scrub with state := .paused } }.scrub.state = .paused ∧
    State.reset.scrub.state ≠ .running ∧ State.reset.scrub.state ≠ .paused := by decide

/-- Window 3 HELD with a deadline, an access of port A bound to it under way, and one live frame over it. -/
def leased : State :=
  { pendingA [{ readyRead with decision := .admitted [0x8005] [] false (some 3), progress := .executing }]
      (with3 { heldA with deadline := some 5, inFlight := 1, scopeRefs := 1 }) with
    scopes := State.reset.scopes.set .a [⟨3, 3, 0x1000, 4, false⟩]
    clock := { State.reset.clock with run := true, expiry := [⟨3, 5⟩] }
    seq := ⟨.a, 1, some ⟨.port .a, .read, 1, [0x8005], [], [], some 3, none⟩⟩ }

set_option maxRecDepth 20000 in
theorem leased_others : ∀ i, i ≠ 3 → leased.win i = Window.cleared := by decide

theorem leased_win : leased.win 3 = { heldA with deadline := some 5, inFlight := 1, scopeRefs := 1 } := by decide

/-- No two different windows of it are occupied. -/
theorem leased_alone {i j : WinIdx} (h : i ≠ j) (hi : (leased.win i).phase ≠ .free) (hj : (leased.win j).phase ≠ .free) :
    False := by
  by_cases e : i = 3
  · exact hj (by rw [leased_others j (fun f => h (e.trans f.symm))]; rfl)
  · exact hi (by rw [leased_others i e]; rfl)

theorem leased_formed : windowsFormed leased := by
  intro i
  by_cases e : i = 3
  · subst e
    rw [leased_win]
    refine ⟨fun h => (by cases h), fun _ => ⟨by decide, by decide, by decide, by decide, ?_, by decide, by decide⟩, by decide⟩
    rintro a ⟨⟩
    decide
  · rw [leased_others i e]
    exact ⟨fun _ => rfl, fun h => (h rfl).elim, fun h => by cases h⟩

theorem leased_burst : burstMatches leased := by
  constructor
  · rintro b p ⟨⟩ ⟨⟩
    exact ⟨_, [], rfl, rfl, rfl⟩
  · intro p older younger e h he
    have hp : (leased.port p).pending = [] ∨ p = .a := by cases p <;> first | exact .inr rfl | exact .inl rfl
    rcases hp with hp | rfl
    · rw [hp] at h; cases older <;> cases h
    · cases older with
      | nil => exact ⟨rfl, _, rfl, rfl⟩
      | cons x xs => exact absurd (congrArg List.length h) (by
          simp [leased, pendingA, State.port, State.setPort, PerPort.get, PerPort.set])

set_option maxRecDepth 20000 in
theorem leased_scopes : scopesCounted leased := by
  refine ⟨by decide, fun p f hf => ?_⟩
  have hp : leased.scopes.get p = [] ∨ p = .a := by cases p <;> first | exact .inr rfl | exact .inl rfl
  rcases hp with hp | rfl
  · rw [hp] at hf; cases hf
  · have : f = ⟨3, 3, 0x1000, 4, false⟩ := by simpa [leased, PerPort.get, PerPort.set] using hf
    subst this
    intro _
    decide

set_option maxRecDepth 20000 in
theorem leased_expiry : expiryMatches leased := by
  refine ⟨by decide, fun i d => ?_, by decide, by decide, by decide⟩
  have hl : leased.clock.expiry = [⟨3, 5⟩] := rfl
  rw [hl]
  by_cases e : i = 3
  · subst e
    rw [leased_win]
    simp [eq_comm]
  · rw [leased_others i e]
    simp [Window.cleared, e]

set_option maxRecDepth 20000 in
theorem witness_Invariants : Invariants leased where
  tickets := fun p => by cases p <;> decide
  places := ⟨fun p => by cases p <;> decide, by decide, by decide, by decide⟩
  lines := fun p => by cases p <;> decide
  oldest := oldest_of (by decide)
  engine := engine_of (by decide)
  grants := fun _ _ _ h hi hj => (leased_alone h hi.1 hj.1).elim
  scrubs := fun _ _ _ _ h hi hj => (leased_alone h hi hj).elim
  formed := leased_formed
  bindings := by unfold bindingsCounted; decide
  burst := leased_burst
  scopes := leased_scopes
  scrub := ⟨by decide, by decide, by decide, by rintro g ⟨⟩⟩
  expiry := leased_expiry
  requests := by unfold requestsApart; decide
  faults := by
    have e : ∀ n : Fin 8, leased.faults.slots[n] = none := by decide
    exact ⟨fun n m x y h => (by rw [e n] at h; cases h), fun n x h => (by rw [e n] at h; cases h)⟩

/-- The invariants of one obligation each, in that state. -/
theorem witness_invariants : sramCanonical leased ∧ ticketsCounted leased ∧ withinPlaces leased ∧ linesMatch leased ∧
    oldestUnsettled leased ∧ engineMatches leased ∧ noGrantDue leased :=
  ⟨by unfold sramCanonical; decide, witness_Invariants.tickets, witness_Invariants.places, witness_Invariants.lines,
    witness_Invariants.oldest, witness_Invariants.engine, .inl (by decide)⟩

/-- One key is stored, and the recorder held no key before. -/
theorem witness_NoKeyIsStoredTwice :
    (∀ (n m : Fin 8) (x y : FaultRecord), FaultRecorder.powerOn.slots[n] = some x →
      FaultRecorder.powerOn.slots[m] = some y → sameKey x y → n = m) ∧
    (FaultRecorder.powerOn.record (faultA .lapsed)).1.slots[(0 : Fin 8)] = some (faultA .lapsed) := by
  refine ⟨fun n m x y h => ?_, by decide⟩
  have e : ∀ n : Fin 8, FaultRecorder.powerOn.slots[n] = none := by decide
  rw [e n] at h
  cases h

/-- Two routed writes of ports A and B at their last LCLK period, which completes a tick period too. -/
def falling : State :=
  let e : Entry := { routedAt 4 [] with deadlineCount := some 1 }
  let s : State := { State.reset with clock := { State.reset.clock with run := true, periodDivisor := 1 } }
  pendingA [e] (s.setPort .b { s.port .b with pending := [e] })

/-- A deadline taken before the tick is recorded at the lease time before it (log 4). -/
theorem test_lclkPeriod_order :
    ((after (exec (.lclkPeriod []) falling)).faults.slots[(0 : Fin 8)]).map (·.time) = some 1 ∧
    ((after (exec (.lclkPeriod [.deadline .b 0]) falling)).faults.slots[(0 : Fin 8)]).map (fun r => (r.port, r.time)) =
      some (.b, 0) ∧
    ((after (exec (.lclkPeriod [.deadline .b 0]) falling)).faults.slots[(1 : Fin 8)]).map (fun r => (r.port, r.time)) =
      some (.a, 1) := by decide

theorem falling_free : ∀ i, falling.win i = Window.cleared := by decide

theorem witness_LclkPeriods_falling : running falling ∧ tickNow falling ∧ Invariants falling ∧
    ∀ p, ∀ e ∈ (falling.port p).pending, e.progress = .waitingData → ∀ w, e.decision ≠ .served w := by
  have hw := falling_free
  have none_held : ∀ i p, ¬ holdsGrant (falling.win i) p := fun i p h => h.1 (by rw [hw i]; rfl)
  have none_occupied : ∀ i, (falling.win i).phase = .free := fun i => by rw [hw i]; rfl
  have hp : ∀ p, (falling.port p).pending = [] ∨
      (falling.port p).pending = [{ routedAt 4 [] with deadlineCount := some 1 }] := fun p => by
    cases p <;> first | exact .inr rfl | exact .inl rfl
  refine ⟨by decide, by decide, ?_, fun p e he _ w hd => ?_⟩
  · exact {
      tickets := fun p => by cases p <;> decide
      places := ⟨fun p => by cases p <;> decide, by decide, by decide, by decide⟩
      lines := fun p => by cases p <;> decide
      oldest := oldest_of (by decide)
      engine := engine_of (by decide)
      grants := fun i _ p _ hi => (none_held i p hi).elim
      scrubs := fun i _ _ _ _ hi => (hi (none_occupied i)).elim
      formed := fun i => by
        rw [hw i]
        exact ⟨fun _ => rfl, fun h => (h rfl).elim, fun h => by cases h⟩
      bindings := by unfold bindingsCounted; decide
      burst := by
        refine ⟨fun b p h => (by cases h), fun p older younger e h he => ?_⟩
        have hm : e ∈ (falling.port p).pending := by rw [h]; simp
        rcases hp p with h0 | h1
        · rw [h0] at hm; cases hm
        · rw [h1, List.mem_singleton] at hm; subst hm; cases he
      scopes := ⟨by decide, fun p f hf => by cases p <;> cases hf⟩
      scrub := ⟨by decide, by decide, by decide, by rintro g ⟨⟩⟩
      expiry := by
        refine ⟨by decide, fun i d => ?_, by decide, by decide, by decide⟩
        have hl : falling.clock.expiry = [] := rfl
        rw [hw i, hl]
        simp [Window.cleared]
      requests := by unfold requestsApart; decide
      faults := by
        have e : ∀ n : Fin 8, falling.faults.slots[n] = none := by decide
        exact ⟨fun n m x y h => (by rw [e n] at h; cases h), fun n x h => (by rw [e n] at h; cases h)⟩ }
  · rcases hp p with h0 | h1
    · rw [h0] at he; cases he
    · rw [h1, List.mem_singleton] at he; subst he; cases hd

theorem witness_OnlyCompletionsAndPowerOnChangeTheSram : Instr.softReset ∉ [Instr.portBurstComplete, .scrubBurstComplete,
    .fillComplete, .softResetEnd, .porstAssert, .powerOnReset] := by decide

end Sys2Proof.Tests
end

section
/-! PROOFS. Admission (spec/03): what each step of the Admission Unit gives, the decision of a data access assembled
from the steps, and the acceptance of an admitted access. -/

namespace Sys2Proof.Admission
open Sys2Proof.Machine Sys2Proof.Safety

/-- What limits an access beside the window or the granule it meets: the ceiling step 1 lets it pass with, and the
rights and lanes the acting FENCEs take away (R50, R57). -/
structure Limits (s : State) (p : Port) (addr : PortAddr) (ceiling rights : Rights) (lanes : LaneSet) : Prop where
  scope : scopeAllows s p addr ceiling
  fences : fencesTake s p addr rights lanes

/-! ## The model's tests as the conditions of the statements -/

theorem covers_iff (w : Window) (addr : PortAddr) : w.covers addr = true ↔ inRange w addr := by
  rw [Window.covers, rangeHas, Bool.and_eq_true, decide_eq_true_iff, decide_eq_true_iff]; rfl

theorem grantTo_iff (w : Window) (p : Port) : w.grantTo p = true ↔ holdsGrant w p := by
  simp [Window.grantTo, Window.occupied, and_assoc]

theorem fences_iff (s : State) (p : Port) (addr : PortAddr) (j : WinIdx) :
    (s.win j).fences p addr = true ↔ fencedBy s p addr j := by
  simp [Window.fences, covers_iff, and_assoc]

theorem inFixedRegion_iff (addr : PortAddr) (s : State) : inFixedRegion addr s = true ↔ mapped s addr := by
  rw [inFixedRegion, Bool.and_eq_true, decide_eq_true_iff]; rfl

/-! ## Sets of rights and lanes -/

/-- READ+WRITE as a ceiling takes nothing away. -/
@[simp] theorem rights_and_three (r : Rights) : r &&& 3#2 = r := BitVec.and_allOnes

/-- All lanes take nothing away. -/
@[simp] theorem lanes_and_fifteen (l : LaneSet) : l &&& 15#4 = l := BitVec.and_allOnes

@[simp] theorem hasRead_and (r x : Rights) : hasRead (r &&& x) = (hasRead r && hasRead x) := BitVec.getLsbD_and

@[simp] theorem hasWrite_and (r x : Rights) : hasWrite (r &&& x) = (hasWrite r && hasWrite x) := BitVec.getLsbD_and

/-- TAPER leaves READ as it was (R56). -/
@[simp] theorem hasRead_not_rightWrite : hasRead (~~~rightWrite) = true := by decide

/-- TAPER takes WRITE away (R56). -/
@[simp] theorem hasWrite_not_rightWrite : hasWrite (~~~rightWrite) = false := by decide

/-! ## Step 1: the scope bound (R50) -/

theorem scopeBound_of_empty {s : State} {p : Port} (addr : PortAddr) (h : s.scopes.get p = []) :
    scopeBound p addr s = .ok none := by
  simp [scopeBound, h]

theorem scopeBound_of_orphan {s : State} {p : Port} {f : Frame} {fs : List Frame} (addr : PortAddr)
    (h : s.scopes.get p = f :: fs) (ho : f.orphan = true) :
    scopeBound p addr s = .error (.scopeLost, some f.window) := by
  simp [scopeBound, h, ho]

theorem scopeBound_of_outside {s : State} {p : Port} {addr : PortAddr} {f : Frame} {fs : List Frame}
    (h : s.scopes.get p = f :: fs) (ho : f.orphan = false) (hr : ¬ inRange (s.win f.window) addr) :
    scopeBound p addr s = .error (.scopeBound, some f.window) := by
  simp [scopeBound, h, ho, mt (covers_iff _ _).1 hr]

theorem scopeBound_of_inside {s : State} {p : Port} {addr : PortAddr} {f : Frame} {fs : List Frame}
    (h : s.scopes.get p = f :: fs) (ho : f.orphan = false) (hr : inRange (s.win f.window) addr) :
    scopeBound p addr s = .ok (some f.ceiling) := by
  simp [scopeBound, h, ho, (covers_iff _ _).2 hr]

/-- Where step 1 lets the access pass, step 6 cuts the rights to the ceiling, READ+WRITE without a frame (R58). -/
theorem scopeBound_of_scopeAllows {s : State} {p : Port} {addr : PortAddr} {ceiling : Rights}
    (h : scopeAllows s p addr ceiling) : ∃ c, scopeBound p addr s = .ok c ∧
      ∀ b : Basis, applyCeiling c b = { b with rights := b.rights &&& ceiling } := by
  obtain ⟨hs, rfl⟩ | ⟨f, fs, hs, ho, hr, rfl⟩ := h
  · exact ⟨none, scopeBound_of_empty addr hs, fun b => by simp [applyCeiling]⟩
  · exact ⟨some f.ceiling, scopeBound_of_inside hs ho hr, fun b => rfl⟩

/-! ## Steps 2 and 3: the fixed region and the grant match (R53, R55, R56) -/

theorem basisOf_of_mapped {s : State} {addr : PortAddr} (p : Port) (h : mapped s addr) :
    basisOf p addr s = .ok (fixedBasis p addr s) := by
  simp [basisOf, (inFixedRegion_iff addr s).2 h]

theorem basisOf_of_not_mapped {s : State} {addr : PortAddr} (p : Port) (h : ¬ mapped s addr) :
    basisOf p addr s = grantMatch p addr s := by
  simp [basisOf, mt (inFixedRegion_iff addr s).1 h]

theorem matchedGrant_eq_none {s : State} {p : Port} {addr : PortAddr}
    (h : ∀ i, ¬ (holdsGrant (s.win i) p ∧ inRange (s.win i) addr)) : matchedGrant p addr s = none := by
  unfold matchedGrant
  rw [List.find?_eq_none]
  intro i _ hi
  rw [Bool.and_eq_true, grantTo_iff, covers_iff] at hi
  exact h i hi

/-- The search finds the one GRANT that matches, since no other window passes its test. -/
theorem matchedGrant_of_matchedBy {s : State} {p : Port} {addr : PortAddr} {i : WinIdx}
    (h : matchedBy s p addr i) : matchedGrant p addr s = some i := by
  obtain ⟨hg, hr, only⟩ := h
  cases hf : matchedGrant p addr s with
  | none =>
    have := List.find?_eq_none.1 hf i (List.mem_finRange i)
    rw [Bool.and_eq_true, grantTo_iff, covers_iff] at this
    exact absurd ⟨hg, hr⟩ this
  | some j =>
    have hj := List.find?_some hf
    rw [Bool.and_eq_true, grantTo_iff, covers_iff] at hj
    by_cases hji : j = i
    · rw [hji]
    · exact absurd hj (only j hji)

theorem grantMatch_of_unmatched {s : State} {p : Port} {addr : PortAddr}
    (h : ∀ i, ¬ (holdsGrant (s.win i) p ∧ inRange (s.win i) addr)) :
    grantMatch p addr s = .error (.noWindow, none) := by
  simp [grantMatch, matchedGrant_eq_none h]

section GrantMatch
variable {s : State} {p : Port} {addr : PortAddr} {i : WinIdx}

theorem grantMatch_held (h : matchedBy s p addr i) (hp : (s.win i).phase = .held) :
    grantMatch p addr s = .ok (grantBasis i (s.win i).rights s) := by
  simp [grantMatch, matchedGrant_of_matchedBy h, hp]

theorem grantMatch_taper (h : matchedBy s p addr i) (hp : (s.win i).phase = .taper) :
    grantMatch p addr s = .ok (grantBasis i ((s.win i).rights &&& ~~~rightWrite) s) := by
  simp [grantMatch, matchedGrant_of_matchedBy h, hp]

theorem grantMatch_arming (h : matchedBy s p addr i) (hp : (s.win i).phase = .arming) :
    grantMatch p addr s = .error (.notYet, some i) := by
  simp [grantMatch, matchedGrant_of_matchedBy h, hp]

theorem grantMatch_lapsed (h : matchedBy s p addr i) (hp : (s.win i).phase = .lapsed) :
    grantMatch p addr s = .error (.lapsed, some i) := by
  simp [grantMatch, matchedGrant_of_matchedBy h, hp]

theorem grantMatch_retiring (h : matchedBy s p addr i)
    (hp : (s.win i).phase = .draining ∨ (s.win i).phase = .scrubWait ∨ (s.win i).phase = .scrubbing) :
    grantMatch p addr s = .error (.retiring, some i) := by
  rcases hp with hp | hp | hp <;> simp [grantMatch, matchedGrant_of_matchedBy h, hp]

end GrantMatch

/-! ## Step 4: the fences (R57) -/

/-- The bits of one field that the acting FENCEs among some windows take away, all together. -/
def takenBits {n : Nat} (field : Window → BitVec n) (s : State) (p : Port) (addr : PortAddr) :
    List WinIdx → BitVec n
  | [] => 0
  | j :: js =>
    (if (s.win j).fences p addr then field (s.win j) else 0) ||| takenBits field s p addr js

/-- A bit is taken where some acting FENCE has it. -/
theorem getLsbD_takenBits {n : Nat} (field : Window → BitVec n) (s : State) (p : Port) (addr : PortAddr)
    (js : List WinIdx) (k : Nat) : (takenBits field s p addr js).getLsbD k = true ↔
      ∃ j ∈ js, fencedBy s p addr j ∧ (field (s.win j)).getLsbD k = true := by
  induction js with
  | nil => simp [takenBits]
  | cons j js ih =>
    have head : (if (s.win j).fences p addr then field (s.win j) else 0).getLsbD k = true ↔
        fencedBy s p addr j ∧ (field (s.win j)).getLsbD k = true := by
      rw [← fences_iff]
      cases (s.win j).fences p addr <;> simp
    simp only [takenBits, BitVec.getLsbD_or, Bool.or_eq_true, head, ih, List.mem_cons, or_and_right, exists_or,
      exists_eq_left]

/-- Every window in turn removes its bits: together they remove `takenBits`. -/
theorem foldl_applyFence (s : State) (p : Port) (addr : PortAddr) (js : List WinIdx) (b : Basis) :
    js.foldl (applyFence p addr s) b = { b with
      rights := b.rights &&& ~~~takenBits Window.rights s p addr js
      lanes := b.lanes &&& ~~~takenBits Window.writeLanes s p addr js } := by
  induction js generalizing b with
  | nil => simp [takenBits]
  | cons j js ih =>
    rw [List.foldl_cons, ih, applyFence]
    by_cases hf : (s.win j).fences p addr = true <;>
      simp [takenBits, hf, BitVec.not_or, BitVec.and_assoc]

/-- The acting FENCEs take what `takenBits` over all windows says. -/
theorem fencesTake_takenBits (s : State) (p : Port) (addr : PortAddr) :
    fencesTake s p addr (takenBits Window.rights s p addr allWindows)
      (takenBits Window.writeLanes s p addr allWindows) := by
  constructor <;> intro k <;> simp only [getLsbD_takenBits, allWindows, List.mem_finRange, true_and]

/-- Without an acting FENCE nothing is taken. -/
theorem fencesTake_zero {s : State} {p : Port} {addr : PortAddr} (h : ∀ j, ¬ fencedBy s p addr j) :
    fencesTake s p addr 0 0 :=
  ⟨fun _ => by simp [h], fun _ => by simp [h]⟩

theorem limits_of_noFence {s : State} {p : Port} {addr : PortAddr} {ceiling : Rights}
    (hs : scopeAllows s p addr ceiling) (hf : ∀ j, ¬ fencedBy s p addr j) : Limits s p addr ceiling 0 0 :=
  ⟨hs, fencesTake_zero hf⟩

/-- No frame is a ceiling of READ+WRITE. -/
theorem limits_of_noScope_noFence {s : State} {p : Port} {addr : PortAddr} (hs : s.scopes.get p = [])
    (hf : ∀ j, ¬ fencedBy s p addr j) : Limits s p addr 3 0 0 :=
  limits_of_noFence (.inl ⟨hs, rfl⟩) hf

/-- What the FENCEs take is determined by its bits. -/
theorem fencesTake_unique {s : State} {p : Port} {addr : PortAddr} {rights rights' : Rights} {lanes lanes' : LaneSet}
    (h : fencesTake s p addr rights lanes) (h' : fencesTake s p addr rights' lanes') :
    rights = rights' ∧ lanes = lanes' :=
  ⟨BitVec.eq_of_getLsbD_eq fun k _ => Bool.eq_iff_iff.2 ((h.1 k).trans (h'.1 k).symm),
    BitVec.eq_of_getLsbD_eq fun k _ => Bool.eq_iff_iff.2 ((h.2 k).trans (h'.2 k).symm)⟩

/-- Step 4 removes the rights and lanes that the acting FENCEs take (R57). -/
theorem applyFences_eq {s : State} {p : Port} {addr : PortAddr} {rights : Rights} {lanes : LaneSet}
    (h : fencesTake s p addr rights lanes) (b : Basis) : applyFences p addr s b =
      { b with rights := b.rights &&& ~~~rights, lanes := b.lanes &&& ~~~lanes } := by
  obtain ⟨rfl, rfl⟩ := fencesTake_unique h (fencesTake_takenBits s p addr)
  exact foldl_applyFence s p addr allWindows b

/-! ## Steps 5, 7 and 8: relocation and the kind check (R57, R59 to R62) -/

theorem relocate_eq (b : Basis) (acc : Access) : relocate b acc = relocated acc b.from_ b.to_ := by
  have round : ∀ n : Nat, n - n % 4 = n / 4 * 4 := fun n => by omega
  simp [relocate, relocated, beatAddressesOf, beatAddress, round]

theorem kindCheck_read (b : Basis) {acc : Access} (h : acc.kind = .read) :
    kindCheck b acc = readVerdict b.rights (relocated acc b.from_ b.to_) b.bound := by
  simp [kindCheck, h, readVerdict, relocate_eq]

/-- No lane is denied where every enabled lane is writable. -/
theorem hasDeniedLane_eq_false_iff (writable : LaneSet) (lanes : List LaneSet) :
    hasDeniedLane writable lanes = false ↔ ∀ l ∈ lanes, l &&& ~~~writable = 0 := by
  simp [hasDeniedLane]

/-- Every beat is aborted where no enabled lane is writable. -/
theorem trimLanes_all_zero_iff (writable : LaneSet) (lanes : List LaneSet) :
    (trimLanes writable lanes).all (· == 0) = true ↔ ∀ l ∈ lanes, l &&& writable = 0 := by
  simp [trimLanes]

theorem kindCheck_write (b : Basis) {acc : Access} (h : acc.kind = .write) :
    kindCheck b acc = writeVerdict b.rights b.lanes b.policy acc (relocated acc b.from_ b.to_) b.bound := by
  have hk : kindCheck b acc = checkWrite b acc := by simp [kindCheck, h]
  simp only [hk, checkWrite, writeVerdict, relocate_eq, ← hasDeniedLane_eq_false_iff, ← trimLanes_all_zero_iff]
  cases hasWrite b.rights
  · rfl
  · cases hasDeniedLane b.lanes acc.lanes
    · rfl
    · cases b.policy <;> simp [trimLanes]

/-! ## The decision, by its first step that refuses (R49) -/

theorem admission_of_scopeBound_error {s : State} {p : Port} {acc : Access} {r : Refused}
    (h : scopeBound p acc.address s = .error r) : admission p acc s = .refused r.1 r.2 := by
  simp [admission, h]

theorem admission_of_basisOf_error {s : State} {p : Port} {acc : Access} {r : Refused}
    (hs : s.scopes.get p = []) (h : basisOf p acc.address s = .error r) :
    admission p acc s = .refused r.1 r.2 := by
  simp [admission, scopeBound_of_empty _ hs, h]

/-- Where steps 1 to 3 pass, the kind check decides by what the FENCEs and the ceiling leave of the basis. -/
theorem admission_of_basisOf_ok {s : State} {p : Port} {acc : Access} {ceiling rights : Rights} {lanes : LaneSet}
    {b : Basis} (hl : Limits s p acc.address ceiling rights lanes)
    (hb : basisOf p acc.address s = .ok b) : admission p acc s =
      kindCheck { b with rights := b.rights &&& ~~~rights &&& ceiling, lanes := b.lanes &&& ~~~lanes } acc := by
  obtain ⟨c, hc, happly⟩ := scopeBound_of_scopeAllows hl.scope
  simp only [admission, hc, hb, applyFences_eq hl.fences, happly]

/-! ## Under a matched GRANT -/

section UnderAGrant
variable {s : State} {p : Port} {acc : Access} {i : WinIdx} {ceiling rights : Rights} {lanes : LaneSet}

theorem admission_read_of_matchedBy (hl : Limits s p acc.address ceiling rights lanes) (hm : ¬ mapped s acc.address)
    (hi : matchedBy s p acc.address i) (hp : (s.win i).phase = .held ∨ (s.win i).phase = .taper)
    (hk : acc.kind = .read) : admission p acc s =
      readVerdict ((s.win i).rights &&& ~~~rights &&& ceiling) (through (s.win i) acc) (some i) := by
  rcases hp with hp | hp
  · rw [admission_of_basisOf_ok hl ((basisOf_of_not_mapped p hm).trans (grantMatch_held hi hp)),
      kindCheck_read _ hk]
    rfl
  · rw [admission_of_basisOf_ok hl ((basisOf_of_not_mapped p hm).trans (grantMatch_taper hi hp)),
      kindCheck_read _ hk]
    simp [readVerdict, grantBasis, through]

theorem admission_write_of_taper (hl : Limits s p acc.address ceiling rights lanes) (hm : ¬ mapped s acc.address)
    (hi : matchedBy s p acc.address i) (hp : (s.win i).phase = .taper) (hk : acc.kind = .write) :
    admission p acc s = .refused .writeDenied (some i) := by
  rw [admission_of_basisOf_ok hl ((basisOf_of_not_mapped p hm).trans (grantMatch_taper hi hp)),
    kindCheck_write _ hk]
  simp [writeVerdict, grantBasis]

theorem admission_write_of_held (hl : Limits s p acc.address ceiling rights lanes) (hm : ¬ mapped s acc.address)
    (hi : matchedBy s p acc.address i) (hp : (s.win i).phase = .held) (hk : acc.kind = .write) : admission p acc s =
      writeVerdict ((s.win i).rights &&& ~~~rights &&& ceiling) ((s.win i).writeLanes &&& ~~~lanes)
        (s.win i).lanePolicy acc (through (s.win i) acc) (some i) := by
  rw [admission_of_basisOf_ok hl ((basisOf_of_not_mapped p hm).trans (grantMatch_held hi hp)),
    kindCheck_write _ hk]
  rfl

end UnderAGrant

/-- Settles O14: each phase's refusal is that of the grant match. -/
theorem admissionRefusesByPhase : Obligations.AdmissionRefusesByPhase := by
  intro p acc s hs hm
  have refuse {r : Refused} (h : grantMatch p acc.address s = .error r) : admission p acc s = .refused r.1 r.2 :=
    admission_of_basisOf_error hs ((basisOf_of_not_mapped p hm).trans h)
  refine ⟨fun hn => refuse (grantMatch_of_unmatched hn), fun i hi => ⟨fun hp => ?_, fun hp => ?_, fun hp => ?_⟩⟩
  · exact refuse (grantMatch_arming hi hp)
  · exact refuse (grantMatch_lapsed hi hp)
  · exact refuse (grantMatch_retiring hi hp)

/-- Settles O16: the decision under a matched GRANT, phase by phase. -/
theorem aFenceRemovesRightsAndLanes : Obligations.AFenceRemovesRightsAndLanes := by
  intro p acc s i ceiling rights lanes hs hm hi hf
  refine ⟨fun hp hk => ?_, fun hp hk => ?_, fun hp hk => ?_⟩
  · exact admission_read_of_matchedBy ⟨hs, hf⟩ hm hi hp hk
  · exact admission_write_of_taper ⟨hs, hf⟩ hm hi hp hk
  · exact admission_write_of_held ⟨hs, hf⟩ hm hi hp hk

/-- Settles O15: the decision under a matched GRANT where neither a FENCE nor a frame takes anything. -/
theorem admissionUnderAGrant : Obligations.AdmissionUnderAGrant := by
  refine ⟨fun p acc s i target hs hm hi hf hp ht hk => ?_,
    fun p acc s i target hs hm hi hf ht hk => ⟨fun hp => ?_, fun hp => ?_⟩⟩
  · rw [admission_read_of_matchedBy (limits_of_noScope_noFence hs hf) hm hi hp hk]
    simp [readVerdict, through, ht]
  · exact admission_write_of_taper (limits_of_noScope_noFence hs hf) hm hi hp hk
  · rw [admission_write_of_held (limits_of_noScope_noFence hs hf) hm hi hp hk]
    simp [writeVerdict, through, ht]

/-! ## Under a scope stack -/

/-- Settles O18: an orphaned or bounded top frame refuses in step 1; else the decision is that under the matched
GRANT, whatever FENCEs act where the ceiling alone refuses. -/
theorem admissionUnderAScope : Obligations.AdmissionUnderAScope := by
  intro p acc s f fs hstack
  refine ⟨fun ho => admission_of_scopeBound_error (scopeBound_of_orphan _ hstack ho),
    fun ho hr => admission_of_scopeBound_error (scopeBound_of_outside hstack ho hr), fun i ho hr hm hi hp => ?_⟩
  have hs : scopeAllows s p acc.address f.ceiling := .inr ⟨f, fs, hstack, ho, hr, rfl⟩
  have hl := Limits.mk hs (fencesTake_takenBits s p acc.address)
  refine ⟨fun hk hc => ?_, fun hk hc => ?_, fun hf => ⟨fun hk => ?_, fun hk => ?_⟩⟩
  · rw [admission_read_of_matchedBy hl hm hi (.inl hp) hk]
    simp [readVerdict, hc]
  · rw [admission_write_of_held hl hm hi hp hk]
    simp [writeVerdict, hc]
  · simpa using admission_read_of_matchedBy (limits_of_noFence hs hf) hm hi (.inl hp) hk
  · simpa using admission_write_of_held (limits_of_noFence hs hf) hm hi hp hk

/-! ## By the fixed map -/

theorem granuleOf_eq {addr : PortAddr} {g : Fin 16} (h : g.val = addr.toNat / 1024) : granuleOf addr = g := by
  apply Fin.ext
  simp only [granuleOf, Fin.ofNat, ← h]
  exact Nat.mod_eq_of_lt g.isLt

section ByTheFixedMap
variable {s : State} {p : Port} {acc : Access} {g : Fin 16} {ceiling rights : Rights} {lanes : LaneSet}

theorem admission_read_of_mapped (hl : Limits s p acc.address ceiling rights lanes) (hm : mapped s acc.address)
    (hg : g.val = acc.address.toNat / 1024) (hk : acc.kind = .read) :
    admission p acc s =
      readVerdict ((s.map.entries[g].get p).rights &&& ~~~rights &&& ceiling) (relocated acc 0 0) none := by
  rw [admission_of_basisOf_ok hl (basisOf_of_mapped p hm), kindCheck_read _ hk]
  simp only [fixedBasis, granuleOf_eq hg]

theorem admission_write_of_mapped (hl : Limits s p acc.address ceiling rights lanes) (hm : mapped s acc.address)
    (hg : g.val = acc.address.toNat / 1024) (hk : acc.kind = .write) :
    admission p acc s = writeVerdict ((s.map.entries[g].get p).rights &&& ~~~rights &&& ceiling)
      ((s.map.entries[g].get p).lanes &&& ~~~lanes) .strict acc (relocated acc 0 0) none := by
  rw [admission_of_basisOf_ok hl (basisOf_of_mapped p hm), kindCheck_write _ hk]
  simp only [fixedBasis, granuleOf_eq hg]

end ByTheFixedMap

/-- Without WRITE the writable lanes do not matter. -/
theorem writeVerdict_of_not_hasWrite {rights : Rights} (h : hasWrite rights = false) (lanes : LaneSet)
    (policy : LanePolicy) (acc : Access) (addrs : List SramAddr) (bound : Option WinIdx) :
    writeVerdict rights lanes policy acc addrs bound = .refused .writeDenied bound := by
  simp [writeVerdict, h]

/-- An entry gives WRITE and all lanes, or no WRITE (R52). -/
theorem mapEntry_write_or_lanes (e : MapEntry) : hasWrite e.rights = false ∨ e.lanes = 15 := by
  cases e <;> decide

/-- The lanes an entry leaves writable can be taken as all lanes less those taken: an entry without all lanes gives
no WRITE either. -/
theorem writeVerdict_mapEntry (e : MapEntry) (x : Rights) (lanes : LaneSet) (policy : LanePolicy) (acc : Access)
    (addrs : List SramAddr) (bound : Option WinIdx) :
    writeVerdict (e.rights &&& x) (e.lanes &&& lanes) policy acc addrs bound =
      writeVerdict (e.rights &&& x) lanes policy acc addrs bound := by
  rcases mapEntry_write_or_lanes e with h | h
  · have hx : hasWrite (e.rights &&& x) = false := by simp [h]
    rw [writeVerdict_of_not_hasWrite hx, writeVerdict_of_not_hasWrite hx]
  · have all : (15 : LaneSet) &&& lanes = lanes := BitVec.allOnes_and
    rw [h, all]

/-- Settles O17: the fixed map's decision, first where neither a FENCE nor a frame takes anything. -/
theorem admissionByTheFixedMap : Obligations.AdmissionByTheFixedMap := by
  refine ⟨fun p acc s g hs hm hf hg => ⟨fun hk => ?_, fun hk => ?_⟩,
    fun p acc s g ceiling rights entry lanes hs hm hf hg he => ?_⟩
  · rw [admission_read_of_mapped (limits_of_noScope_noFence hs hf) hm hg hk]
    cases s.map.entries[g].get p <;> simp [readVerdict, MapEntry.rights, rightRead, hasRead]
  · rw [admission_write_of_mapped (limits_of_noScope_noFence hs hf) hm hg hk, BitVec.and_assoc,
      writeVerdict_mapEntry]
    cases s.map.entries[g].get p <;> simp [writeVerdict, MapEntry.rights, rightRead, hasWrite]
  · have hr : entry = (s.map.entries[g].get p).rights := by
      rw [he]; cases s.map.entries[g].get p <;> rfl
    rw [hr]
    refine ⟨fun hk => admission_read_of_mapped ⟨hs, hf⟩ hm hg hk, fun hk => ?_⟩
    rw [admission_write_of_mapped ⟨hs, hf⟩ hm hg hk, BitVec.and_assoc, writeVerdict_mapEntry]

/-! ## Acceptance of a data access -/

theorem exec_acceptDataAccess (p : Port) (acc : Access) (s : State) : exec (.acceptDataAccess p acc) s =
    .next (if canAccept s p acc && !acc.isControl then grantDecision (acceptData p acc s) else s) := by
  rfl

theorem canAccept_of_accepts {s : State} {p : Port} {acc : Access} (hw : acc.wellFormed = true)
    (h : accepts s p acc.kind) : canAccept s p acc = true := by
  obtain ⟨hstate, ⟨hporst, hsoft⟩, hplaces, hdiscard⟩ := h
  have hreset : (s.port p).state ≠ .inReset := by rcases hstate with e | e <;> simp [e]
  have hkind : acc.kind = .read ∨ (s.port p).discard = 0 := by
    cases hk : acc.kind with
    | read => exact .inl rfl
    | write => exact .inr (hdiscard hk)
  simp [canAccept, hw, hreset, hporst, hsoft, Config.pendingPlaces, hplaces, hkind]

/-- A data access that the port accepts in ACTIVE: the Admission Unit's verdict is applied, its entry joins the
pending list, and a grant decision that is due is taken (R3, R4, R47, R124). -/
theorem exec_acceptDataAccess_active {s : State} {p : Port} {acc : Access}
    (hw : (Instr.acceptDataAccess p acc).wellFormed = true) (ha : accepts s p acc.kind)
    (hs : (s.port p).state = .active) : exec (.acceptDataAccess p acc) s =
      .next (grantDecision (enterPending p (newEntry acc (admission p acc s).decision)
        (applyVerdict p acc (admission p acc s) s))) := by
  obtain ⟨hwf, hdata⟩ : acc.wellFormed = true ∧ (!acc.isControl) = true := by
    simpa only [Instr.wellFormed, Bool.and_eq_true] using hw
  have hv : dataVerdict p acc s = admission p acc s := by simp [dataVerdict, hs]
  rw [exec_acceptDataAccess, canAccept_of_accepts hwf ha, hdata, acceptData, hv]
  rfl

/-- Neither kind of an admitted access is settled at acceptance (R4 to R7). -/
theorem newEntry_admitted (acc : Access) (addrs : List SramAddr) (lanes : List LaneSet) (trimmed : Bool)
    (bound : Option WinIdx) : newEntry acc (.admitted addrs lanes trimmed bound) =
      entryAtAcceptance acc (.admitted addrs lanes trimmed bound) := by
  cases hk : acc.kind <;> simp [newEntry, hk, entryAtAcceptance, blankEntry, Config.dataDeadline]

/-- A WRITE waits for its data whatever its decision (R5, R6). -/
theorem newEntry_write {acc : Access} (dec : Decision) (hk : acc.kind = .write) :
    newEntry acc dec = entryAtAcceptance acc dec := by
  simp [newEntry, hk, entryAtAcceptance, blankEntry, Config.dataDeadline]

theorem entryAtAcceptance_unsettled (acc : Access) (dec : Decision) :
    (entryAtAcceptance acc dec).progress ≠ .settled := by
  cases hk : acc.kind <;> simp [entryAtAcceptance, hk]

/-- Whether a grant decision is due depends on the pending lists, the sequencer, the engine and the two resets. -/
theorem noGrantDue_of_same {s t : State} (hpending : ∀ q, (t.port q).pending = (s.port q).pending)
    (hseq : t.seq = s.seq) (hscrub : t.scrub = s.scrub) (hsoft : t.softReset = s.softReset)
    (hporst : t.porst = s.porst) (h : noGrantDue s) : noGrantDue t := by
  simpa only [noGrantDue, noCandidate, scrubCandidate, portCandidate, hpending, hseq, hscrub, hsoft, hporst] using h

/-- A new entry of port `p` makes no candidate where the port had an older entry or the new one waits for data. -/
theorem portCandidate_append {s : State} {p : Port} {x : Piu} {e : Entry}
    (hx : x.pending = (s.port p).pending ++ [e]) (h : e.progress ≠ .ready ∨ (s.port p).pending ≠ [])
    (hc : ∀ q, portCandidate s q = false) (q : Port) : portCandidate (s.setPort p x) q = false := by
  by_cases hq : q = p
  · subst hq
    have hold := hc q
    simp only [portCandidate, State.port_setPort_self, hx] at hold ⊢
    cases hl : (s.port q).pending with
    | nil => simpa [hl] using h
    | cons y ys => simpa [hl] using hold
  · simpa only [portCandidate, State.port_setPort_ne s x hq] using hc q

/-- An entry that makes no candidate makes no grant decision due (R122, R124). -/
theorem noGrantDue_append {s : State} {p : Port} {x : Piu} {e : Entry}
    (hx : x.pending = (s.port p).pending ++ [e])
    (h : e.progress ≠ .ready ∨ (s.port p).pending ≠ [] ∨ s.seq.burst.isSome = true) (hd : noGrantDue s) :
    noGrantDue (s.setPort p x) := by
  rcases hd with hd | hd | hd | ⟨hscrub, hports⟩
  · exact .inl hd
  · exact .inr (.inl hd)
  · exact .inr (.inr (.inl hd))
  · rcases h with h | h | h
    · exact .inr (.inr (.inr ⟨hscrub, portCandidate_append hx (.inl h) hports⟩))
    · exact .inr (.inr (.inr ⟨hscrub, portCandidate_append hx (.inr h) hports⟩))
    · exact .inl h

/-- An unsettled entry that makes no candidate takes its place, and nothing leaves or is granted. -/
theorem grantDecision_enterPending {s : State} {p : Port} {e : Entry} (he : e.progress ≠ .settled)
    (hold : ∀ x l, (s.port p).pending = x :: l → x.progress ≠ .settled)
    (h : e.progress ≠ .ready ∨ (s.port p).pending ≠ [] ∨ s.seq.burst.isSome = true) (hd : noGrantDue s) :
    grantDecision (enterPending p e s) =
      s.setPort p { s.port p with pending := (s.port p).pending ++ [e] } := by
  have stays : enterPending p e s = s.setPort p { s.port p with pending := (s.port p).pending ++ [e] } := by
    refine depart_of_unsettled fun x l hl => ?_
    rw [State.port_setPort_self] at hl
    cases hpend : (s.port p).pending with
    | nil => rw [hpend] at hl; cases hl; exact he
    | cons y ys => rw [hpend] at hl; cases hl; exact hold _ _ hpend
  rw [stays]
  exact grantDecision_of_noGrantDue (noGrantDue_append rfl h hd)

/-! ### The verdict applied -/

@[simp] theorem bindWindow_port (bound : Option WinIdx) (s : State) (q : Port) :
    (bindWindow bound s).port q = s.port q := by
  cases bound <;> rfl

/-- A binding touches the windows alone. -/
theorem bindWindow_eq (bound : Option WinIdx) (s : State) :
    bindWindow bound s = { s with windows := (bindWindow bound s).windows } := by
  cases bound <;> rfl

/-- The bound window's in-flight count rises by 1 (R37). -/
theorem bindWindow_win (bound : Option WinIdx) (s : State) (i : WinIdx) : (bindWindow bound s).win i =
    if bound = some i then { s.win i with inFlight := (s.win i).inFlight + 1 } else s.win i := by
  cases bound with
  | none => rfl
  | some j =>
    by_cases h : j = i
    · subst h; simp [bindWindow]
    · simp [bindWindow, h, State.win_setWin_ne _ _ (Ne.symm h)]

/-- The port after an admission: its last admitted address, and TRIMMED where a lane was dropped (R61, R63). -/
def admittedPort (x : Piu) (acc : Access) (trimmed : Bool) : Piu :=
  { x with
    lastAdmitted := some acc.address
    flags := if trimmed = true then x.flags ||| 16 else x.flags }

theorem applyVerdict_admitted (p : Port) (acc : Access) (addrs : List SramAddr) (lanes : List LaneSet)
    (trimmed : Bool) (bound : Option WinIdx) (s : State) :
    applyVerdict p acc (.admitted addrs lanes trimmed bound) s =
      (bindWindow bound s).setPort p (admittedPort (s.port p) acc trimmed) := by
  cases trimmed <;> simp [applyVerdict, admittedPort, Piu.setFlags, trimmedFlag]

/-- A port replaced with its pending list kept, and windows bound, make no grant decision due. -/
theorem noGrantDue_bindWindow_setPort {s : State} {p : Port} {x : Piu} (bound : Option WinIdx)
    (hx : x.pending = (s.port p).pending) (h : noGrantDue s) : noGrantDue ((bindWindow bound s).setPort p x) := by
  refine noGrantDue_of_same (fun q => ?_) ?_ ?_ ?_ ?_ h
  · by_cases hq : q = p
    · subst hq; rw [State.port_setPort_self, hx]
    · rw [State.port_setPort_ne _ _ hq, bindWindow_port]
  all_goals cases bound <;> rfl

/-- An admitted access that makes no candidate: the whole state after its acceptance. -/
theorem exec_acceptDataAccess_admitted {s : State} {p : Port} {acc : Access} {addrs : List SramAddr}
    {lanes : List LaneSet} {trimmed : Bool} {bound : Option WinIdx}
    (hw : (Instr.acceptDataAccess p acc).wellFormed = true) (ha : accepts s p acc.kind)
    (hs : (s.port p).state = .active) (hd : noGrantDue s)
    (hc : acc.kind = .write ∨ (s.port p).pending ≠ [] ∨ s.seq.burst.isSome = true) (ho : oldestUnsettled s)
    (hv : admission p acc s = .admitted addrs lanes trimmed bound) :
    exec (.acceptDataAccess p acc) s = .next ((bindWindow bound s).setPort p
      { admittedPort (s.port p) acc trimmed with
        pending := (s.port p).pending ++ [entryAtAcceptance acc (.admitted addrs lanes trimmed bound)] }) := by
  have hseq : (bindWindow bound s).seq = s.seq := by rw [bindWindow_eq]
  rw [exec_acceptDataAccess_active hw ha hs, hv, Verdict.decision, newEntry_admitted, applyVerdict_admitted,
    grantDecision_enterPending (entryAtAcceptance_unsettled _ _)]
  · simp [admittedPort]
  · simpa [admittedPort] using ho p
  · rcases hc with hk | hk
    · exact .inl (by simp [entryAtAcceptance, hk])
    · exact .inr (by simpa [admittedPort, hseq] using hk)
  · exact noGrantDue_bindWindow_setPort bound rfl hd

/-- A WRITE aborted whole: the whole state after its acceptance (R62). -/
theorem exec_acceptDataAccess_allAborted {s : State} {p : Port} {acc : Access}
    (hw : (Instr.acceptDataAccess p acc).wellFormed = true) (ha : accepts s p acc.kind)
    (hs : (s.port p).state = .active) (ho : oldestUnsettled s) (hd : noGrantDue s) (hk : acc.kind = .write)
    (hv : admission p acc s = .allAborted) :
    exec (.acceptDataAccess p acc) s = .next (s.setPort p { s.port p with
      pending := (s.port p).pending ++ [entryAtAcceptance acc .allAborted]
      flags := (s.port p).flags ||| 16 }) := by
  have happly : applyVerdict p acc .allAborted s =
      (bindWindow none s).setPort p { s.port p with flags := (s.port p).flags ||| 16 } := rfl
  rw [exec_acceptDataAccess_active hw ha hs, hv, Verdict.decision, newEntry_write _ hk, happly,
    grantDecision_enterPending (entryAtAcceptance_unsettled _ _)]
  · simp [bindWindow]
  · simpa using ho p
  · exact .inl (by simp [entryAtAcceptance, hk])
  · exact noGrantDue_bindWindow_setPort none rfl hd

/-- Settles O9: the two states after acceptance, the admitted one taken apart into port, windows and the rest. -/
theorem admittedAccessIsBound : Obligations.AdmittedAccessIsBound := by
  refine ⟨fun p acc s addrs lanes trimmed bound hw ha hs hd hc ho hv => ?_,
    fun p acc s hw ha hs ho hd hk hv => exec_acceptDataAccess_allAborted hw ha hs ho hd hk hv⟩
  refine ⟨_, exec_acceptDataAccess_admitted hw ha hs hd hc ho hv, ?_, fun q hq => ?_, fun i => ?_, ?_⟩
  · rw [State.port_setPort_self]; rfl
  · rw [State.port_setPort_ne _ _ hq, bindWindow_port]
  · rw [State.win_setPort, bindWindow_win]
  · rw [bindWindow_eq]; rfl

end Sys2Proof.Admission
end

section
/-! PROOFS. What an event can do to the request queue, the replies, the tickets, the fault slots and the depths of the
scope stacks (spec/05, spec/06, spec/09): the primitive changes, each command as a chain of them, and the invariants
that every primitive change keeps. -/

namespace Sys2Proof.Requests
open Sys2Proof.Machine Sys2Proof.Safety

/-! ## The books -/

/-- What of a state the invariants on tickets, queued requests and fault slots speak of. -/
structure Book where
  requests : List Request
  replies : PerPort (List Reply)
  tickets : PerPort Nat
  slots : Vector (Option FaultRecord) 8
  depth : Port → Nat

/-- The books of a state. -/
def book (s : State) : Book where
  requests := s.requests
  replies := s.replies
  tickets := s.tickets
  slots := s.faults.slots
  depth p := (s.scopes.get p).length

section SameBook
variable {s t : State}

theorem requests_of_book (h : book t = book s) : t.requests = s.requests := congrArg Book.requests h
theorem replies_of_book (h : book t = book s) : t.replies = s.replies := congrArg Book.replies h
theorem tickets_of_book (h : book t = book s) : t.tickets = s.tickets := congrArg Book.tickets h
theorem slots_of_book (h : book t = book s) : t.faults.slots = s.faults.slots := congrArg Book.slots h
theorem depth_of_book (h : book t = book s) (p : Port) : (t.scopes.get p).length = (s.scopes.get p).length :=
  congrFun (congrArg Book.depth h) p

end SameBook

/-! ### Operations that leave the books -/

@[simp] theorem book_setWin (i : WinIdx) (w : Window) (s : State) : book (s.setWin i w) = book s := rfl
@[simp] theorem book_setPort (p : Port) (x : Piu) (s : State) : book (s.setPort p x) = book s := rfl
@[simp] theorem book_raise (c : BitVec 5) (s : State) : book (s.raise c) = book s := rfl
@[simp] theorem book_removeExpiry (i : WinIdx) (s : State) : book (removeExpiry i s) = book s := rfl
@[simp] theorem book_lowerRef (i : WinIdx) (s : State) : book (lowerRef i s) = book s := rfl
@[simp] theorem book_depart (p : Port) (s : State) : book (depart p s) = book s := rfl
@[simp] theorem book_setEntry (p : Port) (n : Nat) (e : Entry) (s : State) : book (setEntry p n e s) = book s := rfl
@[simp] theorem book_enterPending (p : Port) (e : Entry) (s : State) : book (enterPending p e s) = book s := rfl
@[simp] theorem book_advanceTime (s : State) : book (advanceTime s) = book s := rfl
theorem book_setResult (c : ResultCode) (w : Option WinIdx) (time : LeaseTime) (s : State) :
    book (setResult c w time s) = book s := rfl

@[simp] theorem book_enterPhase (i : WinIdx) (ph : Phase) (c : Code) (s : State) :
    book (enterPhase i ph c s) = book s := by
  simp only [enterPhase]
  split <;> rfl

@[simp] theorem book_enterHeld (i : WinIdx) (s : State) : book (enterHeld i s) = book s := book_enterPhase _ _ _ _

@[simp] theorem book_renewWindow (i : WinIdx) (b : Code) (s : State) : book (renewWindow i b s) = book s := by
  simp [renewWindow]

@[simp] theorem book_enterFirst (i : WinIdx) (s : State) : book (enterFirst i s) = book s := by
  simp [enterFirst, apply_ite book]

/-- Orphaning changes frames in their places (R113). -/
@[simp] theorem book_orphanPort (i : WinIdx) (p : Port) (s : State) : book (orphanPort i p s) = book s := by
  have depth (q : Port) : ((orphanPort i p s).scopes.get q).length = (s.scopes.get q).length := by
    by_cases hq : q = p
    · subst hq; simp [orphanPort]
    · simp [orphanPort, PerPort.get_set_ne _ _ hq]
  simp only [book, depth]
  rfl

@[simp] theorem book_orphanAll (i : WinIdx) (s : State) : book (orphanAll i s) = book s := by
  have depth (q : Port) : ((orphanAll i s).scopes.get q).length = (s.scopes.get q).length := by
    cases q <;> simp [orphanAll, PerPort.get]
  simp only [book, depth]
  rfl

@[simp] theorem book_lowerRefs (fs : List Frame) (s : State) : book (lowerRefs fs s) = book s := by
  induction fs generalizing s with
  | nil => rfl
  | cons f fs ih => simp [lowerRefs, ih, apply_ite book]

@[simp] theorem book_scrubTake (s : State) : book (scrubTake s) = book s := by
  unfold scrubTake
  split <;> rfl

@[simp] theorem book_scrubAppend (i : WinIdx) (s : State) : book (scrubAppend i s) = book s := by
  simp only [scrubAppend]
  split
  · exact book_scrubTake _
  · rfl

@[simp] theorem book_endDrain (i : WinIdx) (s : State) : book (endDrain i s) = book s := by
  simp [endDrain, apply_ite book]

@[simp] theorem book_endDrainIfDone (i : WinIdx) (s : State) : book (endDrainIfDone i s) = book s := by
  simp [endDrainIfDone, apply_ite book]

@[simp] theorem book_enterDraining (i : WinIdx) (s : State) : book (enterDraining i s) = book s := by
  simp [enterDraining]

@[simp] theorem book_enterLapsed (i : WinIdx) (s : State) : book (enterLapsed i s) = book s := by
  simp [enterLapsed, apply_ite book]

@[simp] theorem book_releaseBound (b : Option WinIdx) (s : State) : book (releaseBound b s) = book s := by
  cases b with
  | none => rfl
  | some i => simp [releaseBound, releaseBinding]

@[simp] theorem book_releaseEntries (es : List Entry) (s : State) : book (releaseEntries es s) = book s := by
  induction es generalizing s with
  | nil => rfl
  | cons e es ih => exact (ih _).trans (book_releaseBound _ _)

@[simp] theorem book_bindWindow (b : Option WinIdx) (s : State) : book (bindWindow b s) = book s := by
  cases b <;> rfl

@[simp] theorem book_startPortBurst (p : Port) (s : State) : book (startPortBurst p s) = book s := by
  unfold startPortBurst
  split <;> rfl

@[simp] theorem book_startScrubBurst (s : State) : book (startScrubBurst s) = book s := by
  unfold startScrubBurst
  split <;> rfl

@[simp] theorem book_grantDecision (s : State) : book (grantDecision s) = book s := by
  unfold grantDecision
  cases nextPort s <;> simp [apply_ite book]

@[simp] theorem book_stopOnFault (p : Port) (s : State) : book (stopOnFault p s) = book s := by
  simp [stopOnFault, apply_ite book]

@[simp] theorem book_expiryOf (i : WinIdx) (s : State) : book (expiryOf i s) = book s := by
  simp only [expiryOf]
  split <;> simp [apply_ite book]

@[simp] theorem book_expireHead (e : Expiry) (s : State) : book (expireHead e s) = book s := by
  simp [expireHead]

@[simp] theorem book_expireReached (n : Nat) (s : State) : book (expireReached n s) = book s := by
  induction n generalizing s with
  | zero => rfl
  | succ n ih =>
    unfold expireReached
    split <;> simp [ih, apply_ite book]

@[simp] theorem book_leaseTick (s : State) : book (leaseTick s) = book s := by simp [leaseTick]

@[simp] theorem book_expiryEvent (ph : Phase) (i : WinIdx) (s : State) : book (expiryEvent ph i s) = book s := by
  unfold expiryEvent
  cases s.clock.expiry <;> simp [apply_ite book]

@[simp] theorem book_settleBurst (p : Port) (data : List Word) (s : State) : book (settleBurst p data s) = book s := by
  unfold settleBurst
  split <;> rfl

@[simp] theorem book_burstWrites (b : Burst) (s : State) : book (burstWrites b s) = book s := by
  unfold burstWrites
  split <;> rfl

@[simp] theorem book_fillComplete (i : WinIdx) (s : State) : book (fillComplete i s) = book s := by
  simp only [fillComplete]
  split
  · rfl
  · exact book_scrubTake _

@[simp] theorem book_countGroup (s : State) : book (countGroup s) = book s := by
  unfold countGroup
  split
  · rfl
  · split
    · exact book_fillComplete _ _
    · rfl

@[simp] theorem book_abortPort (s : State) (p : Port) : book (abortPort s p) = book s := by simp [abortPort]

@[simp] theorem book_abortAll (s : State) : book (abortAll s) = book s := by simp [abortAll, allPorts]

@[simp] theorem book_selectorBit (b : Bool) (s : State) : book (selectorBit b s) = book s := by
  simp only [selectorBit]
  split <;> rfl

@[simp] theorem book_createWindow (n : NewWindow) (s : State) : book (createWindow n s).1 = book s := by
  unfold createWindow
  cases creationFault n s with
  | some code => rfl
  | none => cases freeWindow s <;> simp [actionFailed, actionDone]

@[simp] theorem book_applyAmend (i : WinIdx) (a : ActionRecord) (s : State) : book (applyAmend i a s) = book s := by
  simp [applyAmend, allPorts, orphanRemoved, apply_ite book]

/-! ## The changes -/

/-- A primitive change of the books, as one part of an event makes it. -/
inductive Change : State → State → Prop
  /-- the books stand -/
  | quiet {s t : State} (h : book t = book s) : Change s t
  /-- every block takes its reset value -/
  | reset {s t : State} (h : book t = book State.reset) : Change s t
  /-- a request arrives for a free ticket (R91, R85) -/
  | arrival {s : State} (r : Request) (h : 0 < s.tickets.get r.port) : Change s (requestArrival r s)
  /-- a queued request is withdrawn (R95) -/
  | withdrawal {s : State} (p : Port) (tag : Tag) (h : s.requests.any (Request.named p tag) = true) :
      Change s (setTickets p (s.tickets.get p + 1) { s with requests := s.requests.eraseP (Request.named p tag) })
  /-- a reply is read (R104) -/
  | replyRead {s : State} (p : Port) : Change s (serveReply p s).2
  /-- the head is answered (R98, R99, R101) -/
  | headAnswered {s : State} (r : Request) (rest : List Request) (outcome : ReplyOutcome)
      (h : s.requests = r :: rest) : Change s (answerHead r outcome s)
  /-- a port's requests and replies go with its reset line (R106) -/
  | portDropped {s : State} (p : Port) : Change s (dropRequests p s)
  /-- a frame is pushed on a stack with a place (R110, R111) -/
  | framePushed {s : State} (p : Port) (i : WinIdx) (c : Rights) (h : (s.scopes.get p).length < 8) :
      Change s (pushFrame p i c s)
  /-- a stack becomes shorter (R112, R117, R118) -/
  | framesGone {s : State} (p : Port) (l : List Frame) (h : l.length ≤ (s.scopes.get p).length) :
      Change s { s with scopes := s.scopes.set p l }
  /-- a fault event reaches the recorder (R151) -/
  | recorded {s : State} (p : Port) (reason : Reason) (kind : FaultKind) (a : PortAddr) (w : Option WinIdx) :
      Change s (recordFault (faultRecordOf s p reason kind a w) s)
  /-- a slot is acknowledged (R153) -/
  | slotFreed {s : State} (n : Fin 8) :
      Change s { s with faults := { s.faults with slots := s.faults.slots.set n none } }

/-- Changes one after the other. -/
inductive Changes (s : State) : State → Prop
  | refl : Changes s s
  | tail {t u : State} (h : Changes s t) (c : Change t u) : Changes s u

theorem Changes.single {s t : State} (c : Change s t) : Changes s t := .tail .refl c

theorem Changes.trans {s t u : State} (h : Changes s t) (k : Changes t u) : Changes s u := by
  induction k with
  | refl => exact h
  | tail _ c ih => exact ih.tail c

theorem Changes.quiet {s t : State} (h : book t = book s) : Changes s t := .single (.quiet h)

/-- Changes, and then a part that leaves the books. -/
theorem Changes.thenQuiet {s t u : State} (h : Changes s t) (k : book u = book t) : Changes s u := h.tail (.quiet k)

/-- The second part first: its start is read off the end. -/
theorem Changes.before {s t u : State} (k : Changes t u) (h : Changes s t) : Changes s u := h.trans k

theorem changes_ite {c : Prop} [Decidable c] {s t u : State} (h : Changes s t) (k : Changes s u) :
    Changes s (if c then t else u) := by
  split
  · exact h
  · exact k

/-- A list of parts, each made of changes. -/
theorem changes_foldl {α : Type} {f : State → α → State} (h : ∀ s x, Changes s (f s x)) (l : List α) (s : State) :
    Changes s (l.foldl f s) := by
  induction l generalizing s with
  | nil => exact .refl
  | cons x l ih => exact (h s x).trans (ih _)

/-- What every primitive change keeps, every chain of them keeps. -/
theorem Changes.keeps {P : State → Prop} (step : ∀ {s t}, Change s t → P s → P t) {s t : State} (h : Changes s t)
    (hs : P s) : P t := by
  induction h with
  | refl => exact hs
  | tail _ c ih => exact step c ih

/-! ## Every command is a chain of changes -/

/-! ### Fault events, accesses and deadlines -/

theorem changes_faultEvent (p : Port) (reason : Reason) (kind : FaultKind) (a : PortAddr) (w : Option WinIdx)
    (s : State) : Changes s (faultEvent p reason kind a w s) :=
  .tail (.single (.recorded p reason kind a w)) (.quiet (by simp [faultEvent]))

theorem changes_applyVerdict (p : Port) (acc : Access) (v : Verdict) (s : State) :
    Changes s (applyVerdict p acc v s) := by
  cases v with
  | admitted addrs lanes trimmed bound => exact .quiet (by simp [applyVerdict])
  | allAborted => exact .quiet rfl
  | refused reason window => exact changes_faultEvent _ _ _ _ _ _

theorem changes_acceptData (p : Port) (acc : Access) (s : State) : Changes s (acceptData p acc s) :=
  (changes_applyVerdict p acc _ s).thenQuiet (book_enterPending _ _ _)

theorem changes_refuseControl (p : Port) (acc : Access) (reason : Reason) (s : State) :
    Changes s (refuseControl p acc reason s) :=
  (changes_faultEvent _ _ _ _ _ s).thenQuiet (book_enterPending _ _ _)

theorem changes_serveControl (p : Port) (acc : Access) (s : State) : Changes s (serveControl p acc s) := by
  have read : Changes s (controlRead p acc s).2 := by
    unfold controlRead
    split
    · exact .single (.replyRead p)
    · split <;> exact .refl
  exact read.thenQuiet (book_enterPending _ _ _)

theorem changes_acceptControl (p : Port) (acc : Access) (s : State) : Changes s (acceptControl p acc s) := by
  unfold acceptControl
  refine changes_ite (changes_refuseControl _ _ _ s) (changes_ite (changes_refuseControl _ _ _ s) ?_)
  split
  · exact changes_serveControl p acc s
  · exact .quiet rfl

theorem changes_deadlineSettled (p : Port) (place : Nat) (e : Entry) (s : State) :
    Changes s (deadlineSettled p place e s) := by
  refine .before (t := s.setPort p { s.port p with discard := (s.port p).discard + e.missing }) ?_ (.quiet rfl)
  simp only [deadlineSettled, deadlineOutcome]
  split
  · exact (changes_faultEvent _ _ _ _ _ _).before (.quiet (by simp))
  · exact (changes_faultEvent _ _ _ _ _ _).before (.quiet rfl)
  · exact (changes_faultEvent _ _ _ _ _ _).before (.quiet rfl)
  · exact .quiet rfl
  · exact .refl

theorem changes_deadlineIf (test : Nat → Bool) (p : Port) (place : Nat) (s : State) :
    Changes s (deadlineIf test p place s) := by
  unfold deadlineIf
  split
  · exact (changes_deadlineSettled p place _ s).thenQuiet (book_depart _ _)
  · exact .refl

theorem changes_runParts (parts : List LclkPart) (x : State × Bool) : Changes x.1 (parts.foldl runPart x).1 := by
  induction parts generalizing x with
  | nil => exact .refl
  | cons part parts ih =>
    refine .before (ih _) ?_
    cases part with
    | tick => exact .quiet (by cases h : x.2 <;> simp [runPart, h])
    | deadline p place => exact changes_deadlineIf _ p place x.1
    | grant => exact .quiet (book_grantDecision _)

theorem changes_lclkPeriod (order : List LclkPart) (s : State) : Changes s (lclkPeriod order s) :=
  .thenQuiet (.before (changes_runParts (order ++ wholePeriod) (countPeriod s, tickDue s)) (.quiet rfl))
    (book_grantDecision _)

/-! ### Control writes -/

/-- A request that needs a ticket arrives, or is refused NO_TICKET (R85, R91). -/
theorem changes_ticketed (r : Request) (window : Option WinIdx) (s : State) :
    Changes s (if s.tickets.get r.port == 0 then ownerRefused s .noTicket window
      else ownerOk (requestArrival r s)).1 := by
  split
  · exact .refl
  · rename_i h
    exact .single (.arrival r (Nat.pos_of_ne_zero (by simpa using h)))

theorem changes_carryNew (p : Port) (words : List Word) (s : State) : Changes s (carryNew p words s).1 :=
  changes_ticketed
    ⟨p, newTag (words.getD 0 0), .new (newFieldsOf (words.getD 0 0) (words.getD 1 0)), s.clock.time⟩ none s

theorem changes_renewByPort (p : Port) (i : WinIdx) (tag : Tag) (s : State) :
    Changes s (renewByPort p i tag s).1 := by
  simp only [renewByPort]
  split
  · exact .refl
  · split
    case h_6 | h_7 =>
      split
      · exact changes_ticketed ⟨p, tag, .extend i, s.clock.time⟩ (some i) s
      · exact .quiet (book_renewWindow _ _ s)
    all_goals exact .refl

theorem changes_carryRenew (p : Port) (words : List Word) (s : State) : Changes s (carryRenew p words s).1 := by
  simp only [carryRenew]
  split
  · exact .refl
  · exact changes_renewByPort _ _ _ s

theorem changes_carryWithdraw (p : Port) (words : List Word) (s : State) : Changes s (carryWithdraw p words s).1 := by
  simp only [carryWithdraw]
  split
  · rename_i h
    exact .single (.withdrawal p _ h)
  · exact .refl

theorem changes_carryRelease (p : Port) (words : List Word) (s : State) : Changes s (carryRelease p words s).1 := by
  have hold (i : WinIdx) : book (releaseHold p i s) = book s := by simp [releaseHold, apply_ite book]
  simp only [carryRelease]
  split
  · exact .refl
  · simp only [releaseByPort]
    split
    · exact .refl
    · split
      · exact .refl
      · exact .quiet (hold _)

theorem changes_pushOver (p : Port) (i : WinIdx) (c : Rights) (s : State) (h : (s.scopes.get p).length < 8) :
    Changes s (pushOver p i c s).1 := by
  unfold pushOver
  split
  · exact .single (.framePushed p i c h)
  · split
    · exact .refl
    · split
      · exact .refl
      · exact .single (.framePushed p i c h)

theorem changes_carryPush (p : Port) (words : List Word) (s : State) : Changes s (carryPush p words s).1 := by
  simp only [carryPush]
  split
  · exact .refl
  · rename_i h
    split
    · exact .refl
    · split
      · exact .refl
      · exact changes_pushOver p _ _ s (Nat.lt_of_not_le h)

theorem changes_carryPop (p : Port) (words : List Word) (s : State) : Changes s (carryPop p words s).1 := by
  unfold carryPop
  split
  · exact .refl
  · rename_i f fs h
    have gone : Changes s { s with scopes := s.scopes.set p fs } := .single (.framesGone p fs (by simp [h]))
    exact changes_ite gone (gone.thenQuiet rfl)

theorem changes_ownerOf (n : Nat) (p : Port) (words : List Word) (s : State) :
    Changes s (ownerOf n p words s).1 := by
  unfold ownerOf
  split
  · exact changes_carryNew p words s
  · exact changes_carryRenew p words s
  · exact changes_carryWithdraw p words s
  · exact changes_carryRelease p words s
  · exact changes_carryPush p words s
  · exact changes_carryPop p words s
  · exact .quiet (book_setPort _ _ _)
  · exact .refl

theorem changes_carryRouted (n : Nat) (p : Port) (place : Nat) (e : Entry) (w : Word) (s : State) :
    Changes s (carryRouted (ownerOf n) p place e w s) := by
  refine .before (t := (ownerOf n p (e.kept ++ [w]) s).1) ?_ (changes_ownerOf n p _ s)
  simp only [carryRouted, settleRouted]
  split
  · exact .quiet (book_setEntry _ _ _ _)
  · exact (changes_faultEvent _ _ _ _ _ _).before (.quiet (book_setEntry _ _ _ _))

theorem changes_finishRouted (n : Nat) (p : Port) (place : Nat) (e : Entry) (w : Word) (s : State) :
    Changes s (finishRouted (ownerOf n) p place e w s) :=
  (changes_carryRouted n p place e w s).thenQuiet (book_depart _ _)

/-- The row of the control write at aperture word `n`. -/
theorem changes_controlWrite (n : Nat) (p : Port) (w : Word) (s : State) :
    Changes s (controlWrite (ownerOf n) n p w s) := by
  unfold controlWrite
  split
  · exact (changes_finishRouted n p _ _ w s).thenQuiet (book_grantDecision _)
  · exact .refl

theorem changes_dataBeat (p : Port) (w : Word) (s : State) : Changes s (dataBeat p w s) := by
  unfold dataBeat
  refine changes_ite (.quiet rfl) ?_
  split
  · unfold beatToEntry
    refine changes_ite (.quiet rfl) ?_
    split
    · exact changes_finishRouted _ p _ _ w s
    all_goals exact .quiet rfl
  · exact .refl

/-! ### Resets and completions -/

theorem changes_emptyStack (p : Port) (s : State) : Changes s (emptyStack p s) := by
  have lowered : book (lowerRefs (s.scopes.get p) s) = book s := book_lowerRefs _ s
  exact .tail (Changes.quiet lowered) (.framesGone p [] (Nat.zero_le _))

theorem changes_portReset (p : Port) (order : DiscardOrder) (s : State) : Changes s (portReset p order s) :=
  .before (changes_emptyStack p _) (.tail (Changes.quiet (by simp)) (.portDropped p))

theorem changes_meetReset (p : Port) (s : State) (meeting : ResetMeeting) : Changes s (meetReset p s meeting) := by
  unfold meetReset
  split
  · split
    · exact changes_ite (changes_deadlineSettled p _ _ s) .refl
    · exact .refl
  · split
    · exact changes_carryRouted _ p _ _ _ s
    · exact .refl

theorem changes_softResetBegin (s : State) : Changes s (softResetBegin s) := by
  have aborted : book (abortAll { s with softReset := true }) = book s := book_abortAll _
  unfold softResetBegin
  refine changes_ite .refl ?_
  simp only
  split
  · exact .single (.reset rfl)
  · split
    · exact .quiet aborted
    · exact .quiet rfl

theorem changes_afterBurst (s : State) : Changes s (afterBurst s) :=
  changes_ite (.single (.reset rfl)) (.quiet (book_grantDecision _))

theorem changes_portCompletion (p : Port) (b : Burst) (s : State) : Changes s (portCompletion p b s) :=
  (changes_afterBurst _).before (.quiet (by simp))

theorem changes_scrubCompletion (b : Burst) (s : State) : Changes s (scrubCompletion b s) :=
  (changes_afterBurst _).before (.quiet (by simp))

/-! ### Frames and actions -/

/-- The end of a frame, by its update. -/
theorem changes_frameUpdate {kind : FrameEnd} {update : Payload → State → State}
    (h : ∀ x t, Changes t (update x t)) (s : State) : Changes s (frameUpdate kind update s) :=
  changes_ite ((h _ _).before (.quiet rfl)) .refl

/-- The end of an ACTION frame, by its action. -/
theorem changes_actionFrame {code : BitVec 5} {act : ActionRecord → State → ActionOut}
    (h : ∀ a t, Changes t (act a t).1) (s : State) : Changes s (actionFrame code act s) :=
  changes_frameUpdate (fun x t => (h (actionRecordOf x) t).thenQuiet (book_setResult _ _ _ _)) s

theorem changes_onWindow {a : ActionRecord} {act : WinIdx → State → ActionOut} {s : State}
    (h : ∀ i, Changes s (act i s).1) : Changes s (onWindow a act s).1 := by
  unfold onWindow
  split
  · exact .refl
  · exact h _

theorem changes_onHead {a : ActionRecord} {act : Request → State → ActionOut} {s : State}
    (h : ∀ r rest, s.requests = r :: rest → Changes s (act r s).1) : Changes s (onHead a act s).1 := by
  unfold onHead
  split
  · exact .refl
  · rename_i r rest hr
    split
    · exact h r rest hr
    · exact .refl

/-- The head answered after a part that leaves the books. -/
theorem changes_answerHead {s t : State} {r : Request} {rest : List Request} (outcome : ReplyOutcome)
    (h : s.requests = r :: rest) (ht : book t = book s) : Changes s (answerHead r outcome t) :=
  .tail (Changes.quiet ht) (.headAnswered r rest outcome ((requests_of_book ht).trans h))

theorem changes_grantNew {a : ActionRecord} {r : Request} {rest : List Request} (f : NewFields) {s : State}
    (h : s.requests = r :: rest) : Changes s (grantNew a r f s).1 := by
  have created := book_createWindow (grantOperands r.port r.tag f a) s
  unfold grantNew
  split
  · rename_i t i hc
    rw [hc] at created
    exact changes_answerHead _ h created
  · exact .refl

theorem changes_grantHead {a : ActionRecord} {r : Request} {rest : List Request} {s : State}
    (h : s.requests = r :: rest) : Changes s (grantHead a r s).1 := by
  unfold grantHead
  split
  · exact changes_grantNew _ h
  · unfold grantExtend
    split
    · exact changes_answerHead _ h (book_renewWindow _ _ s)
    · exact .refl

theorem changes_amendWindow (a : ActionRecord) (i : WinIdx) (s : State) : Changes s (amendWindow a i s).1 := by
  have amended : book (applyAmend i a s) = book s := book_applyAmend i a s
  unfold amendWindow
  split
  · exact .refl
  · split
    · exact .refl
    · split
      · exact .refl
      · exact .quiet amended

/-- An action that leaves the books, on whatever condition it is taken. -/
theorem changes_actionIf {c : Prop} [Decidable c] {s t : State} {code : ResultCode} {done window : Option WinIdx}
    (h : book t = book s) : Changes s (if c then actionDone t done else actionFailed s code window).1 := by
  split
  · exact .quiet h
  · exact .refl

theorem changes_ackFault (slot : BitVec 6) (s : State) : Changes s (ackFault slot s).1 := by
  unfold ackFault
  split
  · rename_i h
    split
    · exact .single (.slotFreed ⟨slot.toNat, h⟩)
    · exact .refl
  · exact .refl

/-! ### Commands -/

/-- Every command is a chain of changes of the books. -/
theorem exec_changes (c : Instr) (s : State) : ∃ t, exec c s = .next t ∧ Changes s t := by
  cases c with
  | acceptDataAccess p acc =>
    exact ⟨_, rfl, changes_ite ((changes_acceptData p acc s).thenQuiet (book_grantDecision _)) .refl⟩
  | acceptControlAccess p acc => exact ⟨_, rfl, changes_ite (changes_acceptControl p acc s) .refl⟩
  | replyRead p => exact ⟨_, rfl, changes_ite (changes_serveControl p replyAccess s) .refl⟩
  | writeDataBeat p w =>
    exact ⟨_, rfl, changes_ite ((changes_dataBeat p w s).thenQuiet (book_grantDecision _)) .refl⟩
  | newRequest p w => exact ⟨_, rfl, changes_controlWrite 0 p w s⟩
  | portRenew p w => exact ⟨_, rfl, changes_controlWrite 2 p w s⟩
  | withdraw p w => exact ⟨_, rfl, changes_controlWrite 3 p w s⟩
  | release p w => exact ⟨_, rfl, changes_controlWrite 4 p w s⟩
  | scopePush p w => exact ⟨_, rfl, changes_controlWrite 5 p w s⟩
  | scopePop p w => exact ⟨_, rfl, changes_controlWrite 6 p w s⟩
  | portClearFlags p w => exact ⟨_, rfl, changes_controlWrite 7 p w s⟩
  | dataDeadline p place =>
    exact ⟨_, rfl, changes_ite ((changes_deadlineIf _ p place s).thenQuiet (book_grantDecision _)) .refl⟩
  | lclkPeriod order => exact ⟨_, rfl, changes_ite (changes_lclkPeriod order s) .refl⟩
  | leaseTick => exact ⟨_, rfl, .quiet (by simp [apply_ite book])⟩
  | onsetExpiry i | holdExpiry i | taperExpiry i => exact ⟨_, rfl, .quiet (book_expiryEvent _ i s)⟩
  | burstGrant => exact ⟨_, rfl, .quiet (book_grantDecision s)⟩
  | portBurstComplete =>
    refine ⟨_, rfl, ?_⟩
    split
    · exact .refl
    · split
      · exact changes_portCompletion _ _ s
      · exact .refl
  | scrubBurstComplete =>
    refine ⟨_, rfl, ?_⟩
    split
    · exact .refl
    · split
      · exact changes_scrubCompletion _ s
      · exact .refl
  | drainEnd i => exact ⟨_, rfl, .quiet (by simp [apply_ite book])⟩
  | fillComplete =>
    refine ⟨_, rfl, ?_⟩
    split
    · exact .refl
    · exact changes_ite (changes_scrubCompletion _ s) .refl
  | portResetAssert p order =>
    refine ⟨_, rfl, changes_ite .refl ?_⟩
    exact ((changes_portReset p _ _).before (changes_foldl (changes_meetReset p) order.first s)).thenQuiet
      (book_grantDecision _)
  | portResetRelease p => exact ⟨_, rfl, changes_ite (.quiet rfl) .refl⟩
  | porstAssert => exact ⟨_, rfl, changes_ite .refl (.single (.reset rfl))⟩
  | powerOnReset => exact ⟨_, rfl, changes_ite (.single (.reset rfl)) .refl⟩
  | softResetEnd =>
    refine ⟨_, rfl, changes_ite ?_ .refl⟩
    split
    · exact changes_afterBurst s
    · split
      · exact changes_portCompletion _ _ s
      · exact changes_scrubCompletion _ s
  | malformedFrame =>
    refine ⟨_, rfl, .quiet ?_⟩
    split <;> rfl
  | readOnlyFrame | nullAction => exact ⟨_, rfl, changes_frameUpdate (fun _ _ => .refl) s⟩
  | attnEnable | attnAck | clock | scrubUpdate | fixedMap =>
    exact ⟨_, rfl, changes_frameUpdate (fun _ _ => .quiet (by rfl)) s⟩
  | portArmUpdate =>
    refine ⟨_, rfl, ?_⟩
    split
    · exact changes_frameUpdate (fun _ _ => .quiet (by rfl)) s
    all_goals exact .refl
  | badAction =>
    refine ⟨_, rfl, .quiet ?_⟩
    split
    · split <;> rfl
    all_goals rfl
  | create => exact ⟨_, rfl, changes_actionFrame (fun _ t => .quiet (book_createWindow _ t)) s⟩
  | grantHead =>
    exact ⟨_, rfl, changes_actionFrame (fun _ _ => changes_onHead fun _ _ hr => changes_grantHead hr) s⟩
  | refuseHead =>
    exact ⟨_, rfl, changes_actionFrame (fun _ _ => changes_onHead fun _ _ hr => changes_answerHead _ hr rfl) s⟩
  | amend =>
    exact ⟨_, rfl, changes_actionFrame (fun a t => changes_onWindow fun i => changes_amendWindow a i t) s⟩
  | renew =>
    exact ⟨_, rfl, changes_actionFrame
      (fun _ t => changes_onWindow fun i => changes_actionIf (book_renewWindow i _ t)) s⟩
  | activate =>
    exact ⟨_, rfl, changes_actionFrame (fun _ t => changes_onWindow fun i => changes_actionIf (book_enterHeld i t)) s⟩
  | revoke =>
    exact ⟨_, rfl, changes_actionFrame (fun _ _ => changes_onWindow fun _ => changes_actionIf (by simp)) s⟩
  | unwind => exact ⟨_, rfl, changes_actionFrame (fun a t => changes_emptyStack a.port t) s⟩
  | resumePort => exact ⟨_, rfl, changes_actionFrame (fun _ _ => changes_actionIf (by rfl)) s⟩
  | clearFlags | clearOverflow => exact ⟨_, rfl, changes_actionFrame (fun _ _ => .quiet (by rfl)) s⟩
  | ackFault => exact ⟨_, rfl, changes_actionFrame (fun a t => changes_ackFault a.index t) s⟩
  | scrubHold => exact ⟨_, rfl, changes_actionFrame (fun _ _ => changes_actionIf (by rfl)) s⟩
  | scrubResume => exact ⟨_, rfl, changes_actionFrame (fun _ _ => changes_actionIf (by exact book_grantDecision _)) s⟩
  | softReset =>
    have begun (t : State) : Changes t (softResetBegin (setResult .done none t.clock.time t)) :=
      (changes_softResetBegin _).before (.quiet (book_setResult _ _ _ t))
    exact ⟨_, rfl, changes_frameUpdate (fun _ t => begun t) s⟩
  | frameOpen => exact ⟨_, rfl, changes_ite .refl (changes_ite (.quiet rfl) (.quiet rfl))⟩
  | managementClockPeriod dataIn =>
    refine ⟨_, rfl, changes_ite .refl (.quiet ?_)⟩
    split
    · rfl
    · exact book_selectorBit dataIn s
    · rfl

/-- Every step is a chain of changes of the books. -/
theorem step_changes {s t : State} (h : step s = .next t) : Changes s t := by
  unfold step at h
  split at h
  · cases h; exact .refl
  · rename_i c rest _
    obtain ⟨u, hu, k⟩ := exec_changes c { s with pending := rest }
    rw [hu] at h
    cases h
    exact k.before (.quiet rfl)

end Sys2Proof.Requests
end

section
/-! PROOFS. The invariants on tickets, queued requests and fault slots: every primitive change of the books keeps them,
so every step does (R90, R94, R149, R150). -/

namespace Sys2Proof.Requests
open Sys2Proof.Machine Sys2Proof.Safety

/-! ## Tickets (R90) -/

theorem perPort_get_set {α : Type} (x : PerPort α) (p q : Port) (v : α) :
    (x.set p v).get q = if q = p then v else x.get q := by
  by_cases h : q = p
  · simp [h]
  · simp [h, PerPort.get_set_ne x v h]

/-- The tickets of port `p` that are free, queued or with an unread reply. -/
def ticketSum (s : State) (p : Port) : Nat :=
  s.tickets.get p + s.requests.countP (fun r => r.port == p) + (s.replies.get p).length

theorem ticketsCounted_iff (s : State) : ticketsCounted s ↔ ∀ p, ticketSum s p = 4 := Iff.rfl

theorem ticketSum_of_book {s t : State} (h : book t = book s) (p : Port) : ticketSum t p = ticketSum s p := by
  rw [ticketSum, requests_of_book h, replies_of_book h, tickets_of_book h, ticketSum]

/-- The outcome of an arrival takes over the ticket: a reply at once, or a place in the queue. -/
theorem ticketSum_requestArrival {s : State} {r : Request} (h : 0 < s.tickets.get r.port) (p : Port) :
    ticketSum (requestArrival r s) p = ticketSum s p := by
  have replied (outcome : ReplyOutcome) :
      ticketSum (placeReply r.port ⟨r.tag, outcome⟩ (setTickets r.port (s.tickets.get r.port - 1) s)) p =
        ticketSum s p := by
    by_cases hp : p = r.port
    · simp [ticketSum, placeReply, setTickets, hp]; omega
    · simp [ticketSum, placeReply, setTickets, perPort_get_set, hp]
  simp only [requestArrival]
  split
  · exact replied _
  · split
    · exact replied _
    · by_cases hp : p = r.port
      · simp [ticketSum, setTickets, List.countP_append, hp]; omega
      · simp [ticketSum, setTickets, perPort_get_set, List.countP_append, hp, Ne.symm hp]

theorem ticketSum_withdrawal {s : State} {p : Port} {tag : Tag}
    (h : s.requests.any (Request.named p tag) = true) (q : Port) :
    ticketSum (setTickets p (s.tickets.get p + 1)
      { s with requests := s.requests.eraseP (Request.named p tag) }) q = ticketSum s q := by
  obtain ⟨r, hr, named⟩ := List.any_eq_true.1 h
  obtain ⟨x, before, after, -, hx, parts, erased⟩ := List.exists_of_eraseP hr named
  have port : x.port = p := (by simpa [Request.named] using hx : x.port = p ∧ x.tag = tag).1
  rw [parts] at erased
  by_cases hq : q = p
  · simp [ticketSum, setTickets, erased, parts, hq, port]; omega
  · simp [ticketSum, setTickets, perPort_get_set, erased, parts, hq, port, Ne.symm hq]

theorem ticketSum_serveReply (s : State) (p q : Port) : ticketSum (serveReply p s).2 q = ticketSum s q := by
  unfold serveReply
  cases hr : s.replies.get p with
  | nil => rfl
  | cons r rest =>
    by_cases hq : q = p
    · simp [ticketSum, setTickets, hr, hq]; omega
    · simp [ticketSum, setTickets, perPort_get_set, hq]

theorem ticketSum_answerHead {s : State} {r : Request} {rest : List Request} (outcome : ReplyOutcome)
    (h : s.requests = r :: rest) (p : Port) : ticketSum (answerHead r outcome s) p = ticketSum s p := by
  by_cases hp : p = r.port
  · simp [ticketSum, answerHead, placeReply, h, hp]; omega
  · simp [ticketSum, answerHead, placeReply, perPort_get_set, h, hp, Ne.symm hp]

theorem ticketSum_dropRequests_self (s : State) (p : Port) : ticketSum (dropRequests p s) p = 4 := by
  simp [ticketSum, dropRequests, setTickets, Config.tickets, List.countP_filter]

theorem ticketSum_dropRequests_ne (s : State) {p q : Port} (h : q ≠ p) :
    ticketSum (dropRequests p s) q = ticketSum s q := by
  have others : (fun r : Request => r.port == q && r.port != p) = fun r => r.port == q := by
    funext r
    by_cases hr : r.port = q <;> simp [hr, h]
  simp [ticketSum, dropRequests, setTickets, perPort_get_set, h, List.countP_filter, others]

theorem Change.keeps_ticketsCounted {s t : State} (c : Change s t) (hs : ticketsCounted s) : ticketsCounted t := by
  rw [ticketsCounted_iff] at hs ⊢
  intro p
  have sum := hs p
  cases c with
  | quiet h => rw [ticketSum_of_book h, sum]
  | reset h =>
    rw [ticketSum_of_book h]
    cases p <;> rfl
  | arrival r h => rw [ticketSum_requestArrival h, sum]
  | withdrawal q tag h => rw [ticketSum_withdrawal h, sum]
  | replyRead q => rw [ticketSum_serveReply, sum]
  | headAnswered r rest outcome h => rw [ticketSum_answerHead outcome h, sum]
  | portDropped q =>
    by_cases hq : p = q
    · rw [hq, ticketSum_dropRequests_self]
    · rw [ticketSum_dropRequests_ne s hq, sum]
  | recorded q reason kind a w =>
    have kept := lifeKept_recordFault (faultRecordOf s q reason kind a w) s
    rw [ticketSum, kept.requests, kept.replies, kept.tickets]
    exact sum
  | framePushed | framesGone | slotFreed => exact sum

/-- Settles O52: a step is a chain of changes, and each of them moves a ticket with its request or reply. -/
theorem everyStepKeepsTheTicketsCounted : Obligations.EveryStepKeepsTheTicketsCounted :=
  fun _ _ hs h => (step_changes h).keeps Change.keeps_ticketsCounted hs

/-! ## Requests apart (R94) -/

theorem requestsApart_of_sublist {s t : State} (h : t.requests.Sublist s.requests) (hs : requestsApart s) :
    requestsApart t := List.Pairwise.sublist h hs

theorem requestsApart_of_eq {s t : State} (h : t.requests = s.requests) (hs : requestsApart s) : requestsApart t :=
  requestsApart_of_sublist (h ▸ List.Sublist.refl _) hs

/-- A request joins the queue only with a tag that no queued request of its port carries (R92). -/
theorem requestsApart_requestArrival {s : State} (r : Request) (hs : requestsApart s) :
    requestsApart (requestArrival r s) := by
  simp only [requestArrival]
  split
  · exact hs
  · rename_i free
    split
    · exact hs
    · refine List.pairwise_append.2 ⟨hs, List.pairwise_singleton _ _, fun x hx y hy same => free ?_⟩
      rw [List.mem_singleton.1 hy] at same
      have named : s.requests.any (Request.named r.port r.tag) = true :=
        List.any_eq_true.2 ⟨x, hx, by simp [Request.named, same.1, same.2]⟩
      simp [tagInUse, named]

theorem Change.keeps_requestsApart {s t : State} (c : Change s t) (hs : requestsApart s) : requestsApart t := by
  cases c with
  | quiet h => exact requestsApart_of_eq (requests_of_book h) hs
  | reset h => exact requestsApart_of_sublist (by rw [requests_of_book h]; exact List.nil_sublist _) hs
  | arrival r h => exact requestsApart_requestArrival r hs
  | withdrawal q tag h => exact requestsApart_of_sublist List.eraseP_sublist hs
  | replyRead q =>
    have same : (serveReply q s).2.requests = s.requests := by unfold serveReply; split <;> rfl
    exact requestsApart_of_eq same hs
  | headAnswered r rest outcome h => exact requestsApart_of_sublist (List.tail_sublist _) hs
  | portDropped q => exact requestsApart_of_sublist List.filter_sublist hs
  | recorded q reason kind a w =>
    exact requestsApart_of_eq (lifeKept_recordFault _ s).requests hs
  | framePushed | framesGone | slotFreed => exact hs

/-! ## Fault slots apart (R149, R150) -/

/-- No two HELD slots share a key, and each record's counts are in their ranges. -/
def SlotsSound (v : Vector (Option FaultRecord) 8) : Prop :=
  (∀ (n m : Fin 8) (x y : FaultRecord), v[n] = some x → v[m] = some y → sameKey x y → n = m) ∧
  ∀ (n : Fin 8) (x : FaultRecord), v[n] = some x → x.depth ≤ 8 ∧ 1 ≤ x.repeats ∧ x.repeats ≤ 15

theorem faultsApart_iff (s : State) : faultsApart s ↔ SlotsSound s.faults.slots := Iff.rfl

/-- A slot of a recorder with one slot replaced. -/
theorem getElem_set_slot (v : Vector (Option FaultRecord) 8) (n m : Fin 8) (x : Option FaultRecord) :
    (v.set n x)[m] = if m = n then x else v[m] := by
  by_cases h : m = n
  · simp [h]
  · have : n.val ≠ m.val := fun e => h (Fin.ext e.symm)
    simp [h, this]

/-- A slot takes a record whose counts are in their ranges and whose key no other slot holds. -/
theorem SlotsSound.set {v : Vector (Option FaultRecord) 8} (hv : SlotsSound v) (n : Fin 8) {r : FaultRecord}
    (ranges : r.depth ≤ 8 ∧ 1 ≤ r.repeats ∧ r.repeats ≤ 15)
    (fresh : ∀ (m : Fin 8) (y : FaultRecord), m ≠ n → v[m] = some y → ¬ sameKey y r) :
    SlotsSound (v.set n (some r)) := by
  refine ⟨fun i j x y hx hy same => ?_, fun i x hx => ?_⟩
  · rw [getElem_set_slot] at hx hy
    by_cases hi : i = n <;> by_cases hj : j = n
    · rw [hi, hj]
    · rw [if_pos hi] at hx; rw [if_neg hj] at hy; cases hx
      exact absurd ⟨same.1.symm, same.2.1.symm, same.2.2.symm⟩ (fresh j y hj hy)
    · rw [if_neg hi] at hx; rw [if_pos hj] at hy; cases hy
      exact absurd same (fresh i x hi hx)
    · rw [if_neg hi] at hx; rw [if_neg hj] at hy
      exact hv.1 i j x y hx hy same
  · rw [getElem_set_slot] at hx
    split at hx
    · cases hx; exact ranges
    · exact hv.2 i x hx

theorem SlotsSound.free {v : Vector (Option FaultRecord) 8} (hv : SlotsSound v) (n : Fin 8) :
    SlotsSound (v.set n none) := by
  have held {i : Fin 8} {x : FaultRecord} (h : (v.set n none)[i] = some x) : v[i] = some x := by
    rw [getElem_set_slot] at h
    split at h
    · cases h
    · exact h
  exact ⟨fun i j x y hx hy => hv.1 i j x y (held hx) (held hy), fun i x hx => hv.2 i x (held hx)⟩

theorem sameKey_iff (x y : FaultRecord) : x.sameKey y = true ↔ sameKey x y := by
  simp [FaultRecord.sameKey, and_assoc]

/-- The slot found for a key holds a record of that key. -/
theorem slotOfKey_some {f : FaultRecorder} {r : FaultRecord} {n : Fin 8} (h : f.slotOfKey r = some n) :
    ∃ x, f.slots[n] = some x ∧ sameKey x r := by
  have test := List.find?_some h
  cases hx : f.slots[n] with
  | none => simp [hx] at test
  | some x => exact ⟨x, rfl, (sameKey_iff x r).1 (by simpa [hx] using test)⟩

theorem slotOfKey_none {f : FaultRecorder} {r : FaultRecord} (h : f.slotOfKey r = none) (n : Fin 8)
    {x : FaultRecord} (hx : f.slots[n] = some x) : ¬ sameKey x r := by
  intro same
  have test := List.find?_eq_none.1 h n (List.mem_finRange n)
  simp [hx, (sameKey_iff x r).2 same] at test

/-- A record whose counts are in their ranges keeps the slots sound, whichever case of R151 it takes. -/
theorem SlotsSound.record {f : FaultRecorder} {r : FaultRecord} (hf : SlotsSound f.slots)
    (ranges : r.depth ≤ 8 ∧ 1 ≤ r.repeats ∧ r.repeats ≤ 15) : SlotsSound (f.record r).1.slots := by
  unfold FaultRecorder.record
  split
  · rename_i n hn
    obtain ⟨x, hx, -⟩ := slotOfKey_some hn
    obtain ⟨hd, hlow, hhigh⟩ := hf.2 n x hx
    have folded : (f.slots[n]).map FaultRecord.repeated = some x.repeated := by rw [hx]; rfl
    simp only [folded]
    refine hf.set n ⟨hd, ?_, ?_⟩ fun m y hm hy same => hm (hf.1 m n y x hy hx same)
    · simp only [FaultRecord.repeated]
      omega
    · exact Nat.min_le_left _ _
  · rename_i hn
    split
    · exact hf.set _ ranges fun m y _ hy => slotOfKey_none hn m hy
    · exact hf

/-- The slots are sound and every scope stack has at most 8 frames, so that a record's depth is in its range. -/
def FaultsSound (s : State) : Prop := SlotsSound s.faults.slots ∧ ∀ p, (s.scopes.get p).length ≤ 8

theorem faultsSound_of_book {s t : State} (h : book t = book s) (hs : FaultsSound s) : FaultsSound t := by
  refine ⟨?_, fun p => ?_⟩
  · rw [slots_of_book h]; exact hs.1
  · rw [depth_of_book h]; exact hs.2 p

theorem faultsSound_reset : FaultsSound State.reset := by
  have empty (n : Fin 8) : State.reset.faults.slots[n] = none := by
    simp [State.reset, FaultRecorder.powerOn]
  refine ⟨⟨fun n m x y hx => ?_, fun n x hx => ?_⟩, fun p => by simp [State.reset]⟩
  · rw [empty] at hx; cases hx
  · rw [empty] at hx; cases hx

theorem faultsSound_setScopes {s : State} (hs : FaultsSound s) (p : Port) {l : List Frame} (h : l.length ≤ 8) :
    FaultsSound { s with scopes := s.scopes.set p l } := by
  refine ⟨hs.1, fun q => ?_⟩
  simp only [perPort_get_set]
  split
  · exact h
  · exact hs.2 q

theorem Change.keeps_faultsSound {s t : State} (c : Change s t) (hs : FaultsSound s) : FaultsSound t := by
  cases c with
  | quiet h => exact faultsSound_of_book h hs
  | reset h => exact faultsSound_of_book h faultsSound_reset
  | arrival r h =>
    simp only [requestArrival]
    split
    · exact hs
    · split <;> exact hs
  | replyRead q => unfold serveReply; split <;> exact hs
  | recorded q reason kind a w =>
    have slots : SlotsSound (s.faults.record (faultRecordOf s q reason kind a w)).1.slots :=
      hs.1.record ⟨hs.2 q, Nat.le_refl 1, (by decide : 1 ≤ 15)⟩
    simp only [recordFault]
    split <;> exact ⟨slots, hs.2⟩
  | framePushed q i c h => exact faultsSound_setScopes hs q h
  | framesGone q l h => exact faultsSound_setScopes hs q (Nat.le_trans h (hs.2 q))
  | slotFreed n => exact ⟨hs.1.free n, hs.2⟩
  | withdrawal | headAnswered | portDropped => exact hs

/-- Settles O58: of the invariants, the queue's own keeps the requests apart, and the slots' own with the depth of
the scope stacks keeps the fault slots apart. -/
theorem everyStepKeepsTheKeysApart : Obligations.EveryStepKeepsTheKeysApart := by
  intro s t hs h
  have sound : FaultsSound s := ⟨(faultsApart_iff s).1 hs.faults, fun p => (hs.places.1 p).2⟩
  exact ⟨(step_changes h).keeps Change.keeps_requestsApart hs.requests,
    (faultsApart_iff t).2 ((step_changes h).keeps Change.keeps_faultsSound sound).1⟩

end Sys2Proof.Requests
end

section
/-! PROOFS. Control writes at the Request Queue (spec/05 R91, R92, R95): what the last beat of any
routed control write leaves, by its owner's answer, and the answers to NEW and WITHDRAW. -/

namespace Sys2Proof.Requests
open Sys2Proof.Machine Sys2Proof.Safety

/-! ## The last beat of a control write, by its owner's answer (R12) -/

/-- An entry replaced twice in its place. -/
theorem setEntry_setEntry (p : Port) (place : Nat) (e f : Entry) (s : State) :
    setEntry p place f (setEntry p place e s) = setEntry p place f s := by
  simp [setEntry]

/-- An answer overwrites the whole pending list. -/
theorem answeredAt_setPending (p : Port) (q : Slot) (r : Response) (l : List Entry) (s : State) :
    answeredAt p q r (s.setPort p { s.port p with pending := l }) = answeredAt p q r s := by
  unfold answeredAt
  split <;> simp [followed]

/-- The slot's entry settled with its last beat received, and then what leaves (R7, R8, R12). -/
theorem depart_settle_withBeat {s : State} {p : Port} {q : Slot} (h : stands s p q) (w : Word) (r : Response) :
    depart p (setEntry p q.older.length ((withBeat q w).entry.settle r) s) = answeredAt p (withBeat q w) r s := by
  have beat := depart_settle (stands_entry h (withBeat q w).entry) r
  rw [setEntry_setEntry] at beat
  exact beat.trans (answeredAt_setPending p _ r _ s)

/-- A refused write is answered without data words (R9). -/
theorem refusedResponse_write {acc : Access} (reason : Reason) (h : acc.kind = .write) :
    refusedResponse acc reason = ⟨.refused, some reason, []⟩ := by
  simp [refusedResponse, zeroData, h]

section LastBeat
variable {s t : State} {p : Port} {n : Nat} {q : Slot} {kept : List Word} {w : Word}
  {owner : Port → List Word → State → OwnerOut}

/-- A write that its owner carries out without touching the pending list is answered OK (R12). -/
theorem finishRouted_of_ok (h : lastBeatDue s p n q kept) (ho : owner p (kept ++ [w]) s = (t, none))
    (ht : (t.port p).pending = (s.port p).pending) :
    finishRouted owner p q.older.length q.entry w s = carriedOut p q w t := by
  obtain ⟨-, -, -, standing, -, -, -, -, -, -, hkept⟩ := h
  rw [finishRouted, carryRouted, hkept, ho, carriedOut,
    ← depart_settle_withBeat (stands_of_pending standing ht), withBeat, hkept]
  rfl

/-- A write that its owner refuses makes one fault event of kind CONTROL and is answered REFUSED (R12). -/
theorem finishRouted_of_refused {reason : Reason} {window : Option WinIdx} (h : lastBeatDue s p n q kept)
    (ho : owner p (kept ++ [w]) s = (s, some (reason, window))) :
    finishRouted owner p q.older.length q.entry w s = refusedByOwner p q w reason window s := by
  obtain ⟨-, -, -, standing, -, -, hwrite, -, -, -, hkept⟩ := h
  have faulted := stands_of_pending standing
    (faultEvent_pending p reason .control q.entry.access.address window s)
  rw [finishRouted, carryRouted, hkept, ho, refusedByOwner, ← depart_settle_withBeat faulted, withBeat, hkept,
    ← refusedResponse_write reason hwrite, ← faultEvent_setEntry]
  rfl

/-- The row of the control write at aperture word `n` finds its beat due. -/
theorem controlWrite_of_lastBeatDue (h : lastBeatDue s p n q kept) : controlWrite owner n p w s =
    grantDecision (finishRouted owner p q.older.length q.entry w s) := by
  rw [controlWrite, controlBeatDue_eq h]

/-- The data beat itself has the write carried out by the owner of its aperture word (R5, R12). -/
theorem exec_writeDataBeat_of_lastBeatDue (h : lastBeatDue s p n q kept) : exec (.writeDataBeat p w) s =
    .next (grantDecision (finishRouted (ownerOf n) p q.older.length q.entry w s)) := by
  obtain ⟨⟨hporst, hsoft⟩, hreset, hdiscard, standing, ⟨hwaits, holder⟩, hrouted, -, haddr, hbeats, hreceived, -⟩ := h
  have takes : takesBeats s p = true := by simp [takesBeats, hporst, hsoft, hreset]
  have aperture : apertureWordOf q.entry.access = n := by simp [apertureWordOf, haddr, Config.apertureBase]
  have last : ¬ q.entry.received.getD 0 + 1 < q.entry.access.beats := by simp [hreceived, hbeats]
  have beat : dataBeat p w s = finishRouted (ownerOf n) p q.older.length q.entry w s := by
    simp only [dataBeat, hdiscard, standing.1, oldestWaiting_append holder hwaits, beatToEntry, if_neg last, hrouted,
      aperture]
    rfl
  change Host.Outcome.next (if takesBeats s p then grantDecision (dataBeat p w s) else s) = _
  rw [if_pos takes, beat]

/-- Row and data beat carry out whatever the owner's finishing of the write leaves (log 1). -/
theorem carriesOut_of_finishRouted {c : Instr} (h : lastBeatDue s p n q kept)
    (hc : exec c s = .next (controlWrite (ownerOf n) n p w s))
    (ht : finishRouted (ownerOf n) p q.older.length q.entry w s = t) : carriesOut c p w s t := by
  subst ht
  exact ⟨by rw [hc, controlWrite_of_lastBeatDue h], exec_writeDataBeat_of_lastBeatDue h⟩

end LastBeat

/-! ## NEW (R91, R92) -/

theorem tagInUse_eq_false_iff (s : State) (p : Port) (tag : Tag) : tagInUse s p tag = false ↔ tagFree s p tag := by
  simp [tagInUse, tagFree, Request.named]

/-- A tag in use: the reply DUPLICATE takes the ticket (R92). -/
theorem requestArrival_of_tagInUse {s : State} {r : Request} (h : ¬ tagFree s r.port r.tag) :
    requestArrival r s = repliedAtOnce r.port ⟨r.tag, .duplicate⟩ s := by
  have used : tagInUse s r.port r.tag = true := by
    rw [← Bool.not_eq_false]
    exact mt (tagInUse_eq_false_iff s r.port r.tag).1 h
  rw [requestArrival, if_pos used]
  rfl

/-- A free tag and a place: the request joins the queue (R92, R105). -/
theorem requestArrival_of_tagFree {s : State} {r : Request} (h : tagFree s r.port r.tag)
    (places : s.requests.length < 16) : requestArrival r s = joinsQueue r s := by
  have unused : ¬ tagInUse s r.port r.tag = true := by
    rw [Bool.not_eq_true]
    exact (tagInUse_eq_false_iff s r.port r.tag).2 h
  have room : ¬ Config.queuePlaces ≤ s.requests.length := Nat.not_le_of_lt places
  rw [requestArrival, if_neg unused, if_neg room]
  rfl

/-- The fields of the two words of a NEW write, as the statement lays them out. -/
theorem newFieldsOf_eq (w0 w1 : Word) : newFieldsOf w0 w1 = {
    portBase := w1.extractLsb' 0 22, sizeClass := w1.extractLsb' 27 5, rights := w0.extractLsb' 26 2,
    writeLanes := w0.extractLsb' 22 4, lanePolicy := if w0.getLsbD 21 = true then .trim else .strict,
    hold := w0.extractLsb' 16 4, taper := w0.extractLsb' 12 4, scrubWanted := w0.getLsbD 20 } := by
  have policy : policyOfBit (w0.getLsbD 21) = if w0.getLsbD 21 = true then .trim else .strict := by
    cases w0.getLsbD 21 <;> rfl
  rw [newFieldsOf, policy]

theorem carryNew_of_noTicket {p : Port} {s : State} (words : List Word) (h : s.tickets.get p = 0) :
    carryNew p words s = (s, some (.noTicket, none)) := by
  simp [carryNew, h, ownerRefused]

theorem carryNew_of_ticket {p : Port} {s : State} (w0 w1 : Word) (h : 0 < s.tickets.get p) :
    carryNew p [w0, w1] s =
      (requestArrival ⟨p, newTag w0, .new (newFieldsOf w0 w1), s.clock.time⟩ s, none) := by
  simp [carryNew, Nat.ne_of_gt h, ownerOk]

/-- Settles O21: what the queue makes of the arrival, and the entry answered with it. -/
theorem newRequest : Obligations.NewRequest := by
  intro p q w0 w1 s tag due htag
  have carried {t : State} (ticket : 0 < s.tickets.get p)
      (arrival : requestArrival ⟨p, tag, .new (newFieldsOf w0 w1), s.clock.time⟩ s = t)
      (ht : (t.port p).pending = (s.port p).pending) :
      carriesOut (.newRequest p w1) p w1 s (carriedOut p q w1 t) := by
    refine carriesOut_of_finishRouted due rfl (finishRouted_of_ok due ?_ ht)
    rw [← arrival, htag]
    exact carryNew_of_ticket w0 w1 ticket
  refine ⟨fun noTicket => ?_, fun ticket used => ?_, fun ticket free places => ?_⟩
  · exact carriesOut_of_finishRouted due rfl (finishRouted_of_refused due (carryNew_of_noTicket _ noTicket))
  · exact carried ticket (requestArrival_of_tagInUse used) rfl
  · rw [← newFieldsOf_eq]
    exact carried ticket (requestArrival_of_tagFree free places) rfl

/-! ## WITHDRAW (R95) -/

theorem named_iff (p : Port) (tag : Tag) (r : Request) :
    Request.named p tag r = true ↔ r.port = p ∧ r.tag = tag := by
  simp [Request.named]

/-- The first request of the name leaves, wherever it stands, and its ticket returns. -/
theorem carryWithdraw_of_named {p : Port} {w : Word} {s : State} {before after : List Request} {r : Request}
    (hs : s.requests = before ++ r :: after) (hb : ∀ x ∈ before, ¬ (x.port = p ∧ x.tag = withdrawTag w))
    (hr : r.port = p ∧ r.tag = withdrawTag w) : carryWithdraw p [w] s =
      ({ s with requests := before ++ after, tickets := s.tickets.set p (s.tickets.get p + 1) }, none) := by
  have named := (named_iff p (withdrawTag w) r).2 hr
  have queued : s.requests.any (Request.named p (withdrawTag w)) = true :=
    List.any_eq_true.2 ⟨r, by simp [hs], named⟩
  have erased : s.requests.eraseP (Request.named p (withdrawTag w)) = before ++ after := by
    rw [hs, List.eraseP_append_right _ fun x hx => mt (named_iff p _ x).1 (hb x hx), List.eraseP_cons_of_pos named]
  simp [carryWithdraw, queued, erased, ownerOk, setTickets]

theorem carryWithdraw_of_not_named {p : Port} {w : Word} {s : State}
    (h : ∀ x ∈ s.requests, ¬ (x.port = p ∧ x.tag = withdrawTag w)) :
    carryWithdraw p [w] s = (s, some (.noSuchTag, none)) := by
  have absent : s.requests.any (Request.named p (withdrawTag w)) = false :=
    List.any_eq_false.2 fun x hx => mt (named_iff p _ x).1 (h x hx)
  simp [carryWithdraw, absent, ownerRefused]

/-- Settles O22: the queue's answer, and the entry answered with it. -/
theorem withdraw : Obligations.Withdraw := by
  intro p q w s due
  refine ⟨fun before after r hs hb hp ht => ?_, fun absent => ?_⟩
  · exact carriesOut_of_finishRouted due rfl
      (finishRouted_of_ok due (carryWithdraw_of_named hs hb ⟨hp, ht⟩) rfl)
  · exact carriesOut_of_finishRouted due rfl
      (finishRouted_of_refused due (carryWithdraw_of_not_named absent))

end Sys2Proof.Requests
end

section
/-! PROOFS. The actions on the head of the request queue (spec/05 R97 to R101, spec/02 R28): the head check, a creation
by its outcome, and the head answered. -/

namespace Sys2Proof.Requests
open Sys2Proof.Machine Sys2Proof.Safety

/-! ## The head check (R97) -/

section HeadCheck
variable {a : ActionRecord} {act : Request → State → ActionOut} {s : State} {r : Request} {rest : List Request}

theorem onHead_of_empty (h : s.requests = []) : onHead a act s = (s, .queueEmpty, none) := by
  simp [onHead, h, actionFailed]

theorem onHead_of_stale (h : s.requests = r :: rest) (hr : ¬ (r.port = a.port ∧ r.tag = a.tag)) :
    onHead a act s = (s, .staleHead, none) := by
  simp [onHead, h, hr, actionFailed]

theorem onHead_of_head (h : s.requests = r :: rest) (hp : r.port = a.port) (ht : r.tag = a.tag) :
    onHead a act s = act r s := by
  simp [onHead, h, hp, ht]

/-- The head leaves the queue with its answer, and the rest stays (R98, R99, R101). -/
theorem answerHead_eq (h : s.requests = r :: rest) (outcome : ReplyOutcome) :
    answerHead r outcome s = headAnswered r rest outcome s := by
  simp [answerHead, placeReply, headAnswered, h]

/-- The same after a part that leaves the books. -/
theorem answerHead_of_book {t : State} (h : s.requests = r :: rest) (ht : book t = book s) (outcome : ReplyOutcome) :
    answerHead r outcome t = headAnswered r rest outcome t :=
  answerHead_eq ((requests_of_book ht).trans h) outcome

end HeadCheck

/-! ## A NEW head (R28, R98, R100) -/

section NewHead
variable {a : ActionRecord} {r : Request} {rest : List Request} {f : NewFields} {s : State}

theorem grantNew_of_fault {code : ResultCode} (h : creationFault (grantOperands r.port r.tag f a) s = some code) :
    grantNew a r f s = (s, code, none) := by
  simp [grantNew, createWindow, h, actionFailed]

theorem grantNew_of_noFree (h : creationFault (grantOperands r.port r.tag f a) s = none)
    (none_free : ∀ i, (s.win i).phase ≠ .free) : grantNew a r f s = (s, .noFreeWindow, none) := by
  simp [grantNew, createWindow, h, freeWindow_eq_none none_free, actionFailed]

/-- The FREE window of lowest index is created, and the head is answered with it. -/
theorem grantNew_of_free {i : WinIdx} (hq : s.requests = r :: rest)
    (h : creationFault (grantOperands r.port r.tag f a) s = none) (free : (s.win i).phase = .free)
    (lowest : ∀ j, j < i → (s.win j).phase ≠ .free) : grantNew a r f s =
      (headAnswered r rest (.granted i) (created i (grantOperands r.port r.tag f a) s), .done, some i) := by
  have books : book (created i (grantOperands r.port r.tag f a) s) = book s := by
    rw [← enterFirst_newRecord]
    simp
  simp [grantNew, createWindow, h, freeWindow_eq_some free lowest, actionDone, enterFirst_newRecord,
    answerHead_of_book hq books]

end NewHead

/-! ## An EXTEND head (R99, R100) -/

/-- The supervisor renews a GRANT of the port in HELD, TAPER or LAPSED. -/
theorem extendable_iff (w : Window) (p : Port) : (w.grantTo p && w.renewable) = true ↔
    holdsGrant w p ∧ (w.phase = .held ∨ w.phase = .taper ∨ w.phase = .lapsed) := by
  rw [Bool.and_eq_true, Admission.grantTo_iff]
  simp [Window.renewable, or_assoc]

section ExtendHead
variable {a : ActionRecord} {r : Request} {rest : List Request} {i : WinIdx} {s : State}

theorem grantExtend_of_extendable (hq : s.requests = r :: rest) (h : holdsGrant (s.win i) r.port ∧
    ((s.win i).phase = .held ∨ (s.win i).phase = .taper ∨ (s.win i).phase = .lapsed)) : grantExtend a r i s =
      (headAnswered r rest (.granted i) (renewed i a.budget s), .done, some i) := by
  rw [grantExtend, if_pos ((extendable_iff _ _).2 h), answerHead_of_book hq (book_renewWindow _ _ s), renewWindow_eq,
    actionDone]

theorem grantExtend_of_not_extendable (h : ¬ (holdsGrant (s.win i) r.port ∧
    ((s.win i).phase = .held ∨ (s.win i).phase = .taper ∨ (s.win i).phase = .lapsed))) :
    grantExtend a r i s = (s, .wrongState, some i) := by
  rw [grantExtend, if_neg (mt (extendable_iff _ _).1 h), actionFailed]

end ExtendHead

/-! ## The two actions, by what they leave -/

section Actions
variable {s t : State} {code : ResultCode} {window : Option WinIdx} {r : Request} {rest : List Request}

theorem exec_grantHead_of_out (h : actionStands s 2)
    (out : onHead (record s) (grantHead (record s)) (frameDone s) = (t, code, window)) :
    exec .grantHead s = .next (withResult code window s.clock.time t) :=
  congrArg Host.Outcome.next (actionFrame_of_out h out)

theorem exec_refuseHead_of_out (h : actionStands s 3)
    (out : onHead (record s) (fun r u => actionDone (answerHead r (.refused (record s).refusal) u) none)
      (frameDone s) = (t, code, window)) :
    exec .refuseHead s = .next (withResult code window s.clock.time t) :=
  congrArg Host.Outcome.next (actionFrame_of_out h out)

/-- GRANT_HEAD of a NEW head that passes the check. -/
theorem exec_grantHead_of_new {f : NewFields} (h : actionStands s 2) (hq : s.requests = r :: rest)
    (hp : r.port = (record s).port) (ht : r.tag = (record s).tag) (body : r.body = .new f)
    (out : grantNew (record s) r f (frameDone s) = (t, code, window)) :
    exec .grantHead s = .next (withResult code window s.clock.time t) := by
  refine exec_grantHead_of_out h ((onHead_of_head (s := frameDone s) hq hp ht).trans ?_)
  simpa only [grantHead, body] using out

/-- GRANT_HEAD of an EXTEND head that passes the check. -/
theorem exec_grantHead_of_extend {i : WinIdx} (h : actionStands s 2) (hq : s.requests = r :: rest)
    (hp : r.port = (record s).port) (ht : r.tag = (record s).tag) (body : r.body = .extend i)
    (out : grantExtend (record s) r i (frameDone s) = (t, code, window)) :
    exec .grantHead s = .next (withResult code window s.clock.time t) := by
  refine exec_grantHead_of_out h ((onHead_of_head (s := frameDone s) hq hp ht).trans ?_)
  simpa only [grantHead, body] using out

end Actions

/-- Settles O46: the head check's failures, then the head refused, and granted by its kind. -/
theorem headActions : Obligations.HeadActions := by
  refine ⟨fun p tag f r => rfl, fun s => ⟨fun empty => ?_, fun r rest hq => ⟨fun stale => ?_, fun hp ht => ?_⟩⟩⟩
  · exact ⟨fun h => exec_grantHead_of_out h (onHead_of_empty empty),
      fun h => exec_refuseHead_of_out h (onHead_of_empty empty)⟩
  · exact ⟨fun h => exec_grantHead_of_out h (onHead_of_stale hq stale),
      fun h => exec_refuseHead_of_out h (onHead_of_stale hq stale)⟩
  refine ⟨fun h => ?_, fun f h body => ⟨fun code fault => ?_, fun fine => ⟨fun occupied => ?_, fun i free lowest => ?_⟩⟩,
    fun i h body => ⟨fun extendable => ?_, fun other => ?_⟩⟩
  · refine exec_refuseHead_of_out h ((onHead_of_head (s := frameDone s) hq hp ht).trans ?_)
    rw [answerHead_eq (s := frameDone s) hq, actionDone]
  · exact exec_grantHead_of_new h hq hp ht body (grantNew_of_fault fault)
  · exact exec_grantHead_of_new h hq hp ht body (grantNew_of_noFree fine occupied)
  · exact exec_grantHead_of_new h hq hp ht body (grantNew_of_free hq fine free lowest)
  · exact exec_grantHead_of_extend h hq hp ht body (grantExtend_of_extendable hq extendable)
  · exact exec_grantHead_of_extend h hq hp ht body (grantExtend_of_not_extendable other)

end Sys2Proof.Requests
end

section
/-! PROOFS. The grant decision (spec/07 R124 to R126): what it reads, whom it grants, and that it leaves none due. -/

namespace Sys2Proof.Bursts
open Sys2Proof.Machine Sys2Proof.Safety

/-! ## What the decision reads -/

theorem mayGrant_of_running {s : State} (hr : running s) (hb : s.seq.burst = none) : mayGrant s = true := by
  simp [mayGrant, hr.1, hr.2, hb]

/-- A candidate port has a READY oldest entry (R122). -/
theorem portCandidate_iff (s : State) (p : Port) : portCandidate s p = true ↔
    ∃ e es, (s.port p).pending = e :: es ∧ e.progress = .ready := by
  unfold portCandidate
  cases (s.port p).pending <;> simp

theorem any_portCandidate_eq_false_iff (s : State) :
    allPorts.any (portCandidate s) = false ↔ ∀ p, portCandidate s p = false := by
  have all (p : Port) : p ∈ allPorts := by cases p <;> decide
  simp [all]

/-- The Scrub Engine goes first by its share or where no port is a candidate (R125). -/
theorem scrubFirst_iff (s : State) : scrubFirst s = true ↔ scrubCandidate s = true ∧
    (1 ≤ s.clock.share.toNat ∧ s.clock.share.toNat ≤ s.seq.shareCount ∨ ∀ p, portCandidate s p = false) := by
  rw [← any_portCandidate_eq_false_iff]
  simp only [scrubFirst, Bool.and_eq_true, Bool.or_eq_true, decide_eq_true_eq, Bool.not_eq_true']

/-! ## The round-robin search (R125) -/

theorem mem_searchOrder (last p : Port) : p ∈ searchOrder last := by
  cases last <;> cases p <;> decide

theorem portCandidate_of_nextPort {s : State} {p : Port} (h : nextPort s = some p) : portCandidate s p = true :=
  List.find?_some h

theorem nextPort_eq_none_iff (s : State) : nextPort s = none ↔ ∀ p, portCandidate s p = false := by
  simp [nextPort, mem_searchOrder]

/-- The first candidate of the search order is granted. -/
theorem nextPort_of_first {s : State} {p : Port} {before after : List Port}
    (order : searchOrder s.seq.lastGranted = before ++ p :: after) (hb : ∀ q ∈ before, portCandidate s q = false)
    (hp : portCandidate s p = true) : nextPort s = some p :=
  List.find?_eq_some_iff_append.2 ⟨hp, before, after, order, fun q hq => by simp [hb q hq]⟩

/-- The only candidate is granted, whichever port was granted last. -/
theorem nextPort_of_only {s : State} {p : Port} (hp : portCandidate s p = true)
    (only : ∀ q, q ≠ p → portCandidate s q = false) : nextPort s = some p := by
  cases hn : nextPort s with
  | none => rw [(nextPort_eq_none_iff s).1 hn p] at hp; cases hp
  | some q =>
    by_cases hq : q = p
    · rw [hq]
    · have := portCandidate_of_nextPort hn
      rw [only q hq] at this
      cases this

/-! ## The decision, by whom it grants -/

theorem grantDecision_of_scrubFirst {s : State} (hm : mayGrant s = true) (hs : scrubFirst s = true) :
    grantDecision s = startScrubBurst s := by
  rw [grantDecision, if_pos hm, if_pos hs]

/-- A port that wins the search is granted unless the Scrub Engine has the share. -/
theorem grantDecision_of_nextPort {s : State} {p : Port} (hm : mayGrant s = true)
    (hs : scrubCandidate s = false ∨ ¬ (1 ≤ s.clock.share.toNat ∧ s.clock.share.toNat ≤ s.seq.shareCount))
    (hp : nextPort s = some p) : grantDecision s = startPortBurst p s := by
  have port_first : ¬ scrubFirst s = true := by
    rw [scrubFirst_iff]
    rintro ⟨hc, share | none_ready⟩
    · rcases hs with h | h
      · rw [h] at hc; cases hc
      · exact h share
    · have := portCandidate_of_nextPort hp
      rw [none_ready p] at this
      cases this
  rw [grantDecision, if_pos hm, if_neg port_first, hp]

theorem startScrubBurst_of_progress {s : State} {g : ScrubProgress} (h : s.scrub.progress = some g) :
    startScrubBurst s = { s with seq := { s.seq with shareCount := 0, burst := some (scrubBurst s g) } } := by
  rw [startScrubBurst, h]

theorem startPortBurst_of_cons {s : State} {p : Port} {e : Entry} {es : List Entry}
    (h : (s.port p).pending = e :: es) : startPortBurst p s =
      { s with seq := ⟨p, min 15 (s.seq.shareCount + 1), some (portBurst p e)⟩ }.setPort p
        { s.port p with pending := { e with progress := .executing } :: es } := by
  rw [startPortBurst, h]

/-- The burst record of an admitted entry: a READ has no lane sets (R121). -/
theorem portBurst_of_admitted {e : Entry} {addrs : List SramAddr} {lanes : List LaneSet} {trimmed : Bool}
    {bound : Option WinIdx} (p : Port) (h : e.decision = .admitted addrs lanes trimmed bound) : portBurst p e =
      ⟨.port p, e.access.kind, e.access.beats, addrs, if e.access.kind = AccessKind.write then lanes else [], e.kept,
        bound, none⟩ := by
  simp [portBurst, h]

/-! ## No decision is due after it -/

theorem burst_startScrubBurst {s : State} (h : scrubCandidate s = true) :
    (startScrubBurst s).seq.burst.isSome = true := by
  cases hg : s.scrub.progress with
  | none => simp [scrubCandidate, hg] at h
  | some g => rw [startScrubBurst_of_progress hg]; rfl

theorem burst_startPortBurst {s : State} {p : Port} (h : portCandidate s p = true) :
    (startPortBurst p s).seq.burst.isSome = true := by
  obtain ⟨e, es, hp, -⟩ := (portCandidate_iff s p).1 h
  rw [startPortBurst_of_cons hp]
  rfl

/-- A decision that finds a candidate leaves a burst under way, and one that finds none leaves no candidate. -/
theorem noGrantDue_grantDecision (s : State) : noGrantDue (grantDecision s) := by
  by_cases hm : mayGrant s = true
  · by_cases hs : scrubFirst s = true
    · rw [grantDecision_of_scrubFirst hm hs]
      exact .inl (burst_startScrubBurst ((scrubFirst_iff s).1 hs).1)
    · cases hp : nextPort s with
      | some p =>
        rw [grantDecision, if_pos hm, if_neg hs, hp]
        exact .inl (burst_startPortBurst (portCandidate_of_nextPort hp))
      | none =>
        have ports := (nextPort_eq_none_iff s).1 hp
        have engine : scrubCandidate s = false := by
          rw [← Bool.not_eq_true]
          exact fun hc => hs ((scrubFirst_iff s).2 ⟨hc, .inr ports⟩)
        have quiet : noGrantDue s := .inr (.inr (.inr ⟨engine, ports⟩))
        rw [grantDecision_of_noGrantDue quiet]
        exact quiet
  · rw [grantDecision_of_mayGrant (by simpa using hm)]
    exact (noGrantDue_iff s).2 fun h => absurd h hm

/-- Settles O34: no decision due, the Scrub Engine granted, and the port granted that wins the search. -/
theorem theGrantDecision : Obligations.TheGrantDecision := by
  refine ⟨fun s h => congrArg Host.Outcome.next (grantDecision_of_noGrantDue h),
    fun s i off rem target hr hb state progress words htarget first => congrArg Host.Outcome.next ?_,
    fun s p before after e es addrs lanes trimmed bound hr hb share order hbefore hp ready admitted =>
      congrArg Host.Outcome.next ?_⟩
  · have candidate : scrubCandidate s = true := by simp [scrubCandidate, state, progress, words]
    rw [grantDecision_of_scrubFirst (mayGrant_of_running hr hb) ((scrubFirst_iff s).2 ⟨candidate, first⟩),
      startScrubBurst_of_progress progress]
    simp [scrubBurst, htarget]
  · have candidate := (portCandidate_iff s p).2 ⟨e, es, hp, ready⟩
    rw [grantDecision_of_nextPort (mayGrant_of_running hr hb) share (nextPort_of_first order hbefore candidate),
      startPortBurst_of_cons hp, portBurst_of_admitted p admitted]

/-! ## An admitted READ that finds the SRAM idle -/

/-- The entry of an admitted READ taken into an empty list: nothing leaves, and the decision reads it READY. -/
theorem enterPending_of_empty {s : State} {p : Port} {e : Entry} (h : (s.port p).pending = [])
    (he : e.progress ≠ .settled) : enterPending p e s = s.setPort p { s.port p with pending := [e] } := by
  rw [enterPending, h, List.nil_append]
  refine depart_of_unsettled fun x xs hx => ?_
  rw [State.port_setPort_self] at hx
  cases hx
  exact he

/-- A READY entry alone in the only list that changed is granted, where no source was a candidate before. -/
theorem grantDecision_of_onlyReady {s : State} {p : Port} {e : Entry} {x : Piu} (hr : running s)
    (hb : s.seq.burst = none) (quiet : noCandidate s) (hx : x.pending = [e]) (ready : e.progress = .ready) :
    grantDecision (s.setPort p x) =
      { s with seq := ⟨p, min 15 (s.seq.shareCount + 1), some (portBurst p e)⟩ }.setPort p
        { x with pending := [{ e with progress := .executing }] } := by
  have pending : ((s.setPort p x).port p).pending = [e] := by rw [State.port_setPort_self, hx]
  have candidate := (portCandidate_iff (s.setPort p x) p).2 ⟨e, [], pending, ready⟩
  have only (q : Port) (hq : q ≠ p) : portCandidate (s.setPort p x) q = false := by
    simpa only [portCandidate, State.port_setPort_ne s x hq] using quiet.2 q
  have may : mayGrant (s.setPort p x) = true := mayGrant_of_running hr hb
  rw [grantDecision_of_nextPort may (.inl quiet.1) (nextPort_of_only candidate only), startPortBurst_of_cons pending,
    State.port_setPort_self]
  simp [State.setPort]

/-- An admitted READ taken into an empty list with no other candidate: the whole state after its acceptance. -/
theorem exec_acceptDataAccess_granted {s : State} {p : Port} {acc : Access} {addrs : List SramAddr}
    {bound : Option WinIdx} (hw : (Instr.acceptDataAccess p acc).wellFormed = true) (ha : accepts s p acc.kind)
    (hs : (s.port p).state = .active) (read : acc.kind = .read) (empty : (s.port p).pending = [])
    (idle : s.seq.burst = none) (quiet : noCandidate s) (hv : admission p acc s = .admitted addrs [] false bound) :
    exec (.acceptDataAccess p acc) s = .next ({ bindWindow bound s with
        seq := ⟨p, min 15 (s.seq.shareCount + 1),
          some ⟨.port p, .read, acc.beats, addrs, [], [], bound, none⟩⟩ }.setPort p
      { Admission.admittedPort (s.port p) acc false with
        pending := [{ entryAtAcceptance acc (.admitted addrs [] false bound) with progress := .executing }] }) := by
  have bind := Admission.bindWindow_eq bound s
  have running_bound : running (bindWindow bound s) := by rw [bind]; exact ha.2.1
  have seq_bound : (bindWindow bound s).seq = s.seq := by rw [bind]
  have quiet_bound : noCandidate (bindWindow bound s) := by
    refine ⟨by rw [bind]; exact quiet.1, fun q => ?_⟩
    simpa only [portCandidate, Admission.bindWindow_port] using quiet.2 q
  have ready : (entryAtAcceptance acc (.admitted addrs [] false bound)).progress = .ready := by
    simp [entryAtAcceptance, read]
  have burst : portBurst p (entryAtAcceptance acc (.admitted addrs [] false bound)) =
      ⟨.port p, .read, acc.beats, addrs, [], [], bound, none⟩ := by
    rw [portBurst_of_admitted p rfl]
    simp [entryAtAcceptance, read]
  rw [Admission.exec_acceptDataAccess_active hw ha hs, hv, Verdict.decision, Admission.newEntry_admitted,
    Admission.applyVerdict_admitted,
    enterPending_of_empty (by rw [State.port_setPort_self]; exact empty) (by rw [ready]; decide),
    State.port_setPort_self, State.setPort_setPort,
    grantDecision_of_onlyReady running_bound (by rw [seq_bound, idle]) quiet_bound rfl ready, burst, seq_bound]

/-- Settles O10: the entry is the only candidate, so the decision in the same event grants it. -/
theorem admittedReadIsGrantedAtOnce : Obligations.AdmittedReadIsGrantedAtOnce := by
  intro p acc s addrs bound hw ha hs read empty idle quiet verdict
  refine ⟨_, exec_acceptDataAccess_granted hw ha hs read empty idle quiet verdict, ?_, rfl, fun q hq => ?_,
    fun i => ?_, ?_⟩
  · rw [State.port_setPort_self]; rfl
  · rw [State.port_setPort_ne _ _ hq]
    exact Admission.bindWindow_port bound s q
  · rw [State.win_setPort]
    exact Admission.bindWindow_win bound s i
  · rw [Admission.bindWindow_eq]; rfl

end Sys2Proof.Bursts
end

section
/-! PROOFS. What the SRAM holds (spec/07 R127, R129): the operations that leave its content, what a burst writes, and
the completion of a port's burst. -/

namespace Sys2Proof.Bursts
open Sys2Proof.Machine Sys2Proof.Safety

/-! ## The content and what leaves it -/

/-- All that a byte of the SRAM reads from: the bytes written, and the number of the power-on (log 6). -/
def content (s : State) : Memory × Nat := (s.sram, s.powerOns)

theorem sram_of_content {s t : State} (h : content t = content s) : t.sram = s.sram := congrArg Prod.fst h

theorem sramByte_of_content {s t : State} (h : content t = content s) (key : Nat) :
    t.sramByte key = s.sramByte key := by
  rw [State.sramByte, sram_of_content h, show t.powerOns = s.powerOns from congrArg Prod.snd h, State.sramByte]

theorem content_of_lifeKept {s t : State} (h : LifeKept s t) : content t = content s :=
  Prod.ext h.sram h.powerOns

@[simp] theorem content_grantDecision (s : State) : content (grantDecision s) = content s :=
  content_of_lifeKept (lifeKept_grantDecision s)

@[simp] theorem content_faultEvent (p : Port) (reason : Reason) (kind : FaultKind) (a : PortAddr) (w : Option WinIdx)
    (s : State) : content (faultEvent p reason kind a w s) = content s :=
  content_of_lifeKept (lifeKept_faultEvent p reason kind a w s)

/-- The end of a soft reset keeps the SRAM content (R176). -/
theorem content_softResetFinish (s : State) : content (softResetFinish s) = content s := rfl

theorem content_abortAll (s : State) : content (abortAll s) = content s := content_of_lifeKept (lifeKept_abortAll s)

/-- The state with the SRAM idle. -/
def idled (s : State) : State := { s with seq := { s.seq with burst := none } }

/-- After a completion the SRAM is idle, and a soft reset in progress ends or the grant decision is taken (R129). -/
theorem afterBurst_eq (s : State) : afterBurst s =
    if s.softReset then softResetFinish (abortAll (idled s)) else grantDecision (idled s) := rfl

/-- What follows a completion leaves the content. -/
theorem content_afterBurst (s : State) : content (afterBurst s) = content s := by
  rw [afterBurst_eq]
  split
  · exact (content_softResetFinish _).trans (content_abortAll (idled s))
  · exact content_grantDecision (idled s)

/-- Of a completion, only the writes of the burst reach the SRAM. -/
theorem content_portCompletion (p : Port) (b : Burst) (s : State) :
    content (portCompletion p b s) = content (burstWrites b s) := by
  have settled := lifeKept_settleBurst p (readData b s) (releaseBound b.bound (burstWrites b s))
  exact (content_afterBurst _).trans (content_of_lifeKept (settled.before (lifeKept_releaseBound _ _)))

theorem content_scrubCompletion (b : Burst) (s : State) :
    content (scrubCompletion b s) = content (burstWrites b s) :=
  (content_afterBurst _).trans (content_of_lifeKept (lifeKept_countGroup _))

theorem sramCanonical_of_content {s t : State} (h : content t = content s) (hs : sramCanonical s) :
    sramCanonical t := by
  rw [sramCanonical, sram_of_content h]
  exact hs

theorem sramCanonical_burstWrites (b : Burst) {s : State} (hs : sramCanonical s) : sramCanonical (burstWrites b s) := by
  unfold burstWrites
  split
  · exact wf_writeBeats _ _ _ _ hs
  · exact hs

/-! ## The bytes a write burst writes (R127) -/

/-- Lanes of two words share a key only where word and lane are the same. -/
theorem laneKey_inj {a b : SramAddr} {n m : Nat} (hn : n < 4) (hm : m < 4) (h : laneKey a n = laneKey b m) :
    a = b ∧ n = m := by
  simp only [laneKey] at h
  exact ⟨BitVec.eq_of_toNat_eq (by omega), by omega⟩

/-- A write beat writes a byte of its word exactly where the lane is in its set. -/
theorem read_writeWord_self (m : Memory) (addr : SramAddr) (lanes : LaneSet) (w : Word) {n : Nat} (hn : n < 4) :
    Memory.read (writeWord m addr lanes w) (laneKey addr n) =
      if lanes.getLsbD n = true then some (w.extractLsb' (8 * n) 8) else Memory.read m (laneKey addr n) := by
  by_cases hl : lanes.getLsbD n = true
  · rw [if_pos hl, read_writeWord_lane m addr lanes w hn hl]
  · rw [if_neg hl, read_writeWord_other]
    intro k hk hlane same
    rw [(laneKey_inj hk hn same).2] at hlane
    exact hl hlane

theorem read_writeBeats_other (addrs : List SramAddr) (lanes : List LaneSet) (data : List Word) (m : Memory) {key : Nat}
    (h : ∀ a ∈ addrs, ∀ n < 4, laneKey a n ≠ key) :
    Memory.read (writeBeats addrs lanes data m) key = Memory.read m key := by
  induction addrs, lanes, data, m using writeBeats.induct with
  | case1 a as l ls w ws m ih =>
    rw [writeBeats, ih fun x hx => h x (List.mem_cons_of_mem _ hx)]
    exact read_writeWord_other m a l w key fun n hn _ => h a List.mem_cons_self n hn
  | case2 => simp [writeBeats]

/-- Of distinct words, each has the bytes of its own beat. -/
theorem read_writeBeats_beat (addrs : List SramAddr) (lanes : List LaneSet) (data : List Word) (m : Memory)
    (distinct : addrs.Nodup) {k n : Nat} (hk : k < addrs.length) (hl : k < lanes.length) (hd : k < data.length)
    (hn : n < 4) : Memory.read (writeBeats addrs lanes data m) (laneKey addrs[k] n) =
      if lanes[k].getLsbD n = true then some (data[k].extractLsb' (8 * n) 8)
      else Memory.read m (laneKey addrs[k] n) := by
  induction addrs, lanes, data, m using writeBeats.induct generalizing k with
  | case1 a as l ls w ws m ih =>
    obtain ⟨fresh, distinct⟩ := List.nodup_cons.1 distinct
    rw [writeBeats]
    cases k with
    | zero =>
      rw [read_writeBeats_other]
      · exact read_writeWord_self m a l w hn
      · intro x hx i hi same
        rw [(laneKey_inj hi hn same).1] at hx
        exact fresh hx
    | succ k =>
      have inside : k < as.length := Nat.lt_of_succ_lt_succ hk
      have rest := ih distinct inside (Nat.lt_of_succ_lt_succ hl) (Nat.lt_of_succ_lt_succ hd)
      have first : Memory.read (writeWord m a l w) (laneKey as[k] n) = Memory.read m (laneKey as[k] n) := by
        refine read_writeWord_other m a l w _ fun i hi _ same => fresh ?_
        rw [(laneKey_inj hi hn same).1]
        exact List.getElem_mem _
      simpa only [List.getElem_cons_succ, first] using rest
  | case2 addrs lanes data m short =>
    cases addrs with
    | nil => exact absurd hk (Nat.not_lt_zero k)
    | cons a as =>
      cases lanes with
      | nil => exact absurd hl (Nat.not_lt_zero k)
      | cons l ls =>
        cases data with
        | nil => exact absurd hd (Nat.not_lt_zero k)
        | cons w ws => exact (short _ _ _ _ _ _ rfl rfl rfl).elim

/-! ## Completions, as the commands take them -/

theorem exec_portBurstComplete {s : State} {b : Burst} {p : Port} (hb : s.seq.burst = some b)
    (source : b.source = .port p) : exec .portBurstComplete s = .next (portCompletion p b s) := by
  change execPortBurstComplete s = _
  simp only [execPortBurstComplete, hb, source]

theorem exec_scrubBurstComplete {s : State} {b : Burst} (hb : s.seq.burst = some b) (source : b.source = .scrub) :
    exec .scrubBurstComplete s = .next (scrubCompletion b s) := by
  change execScrubBurstComplete s = _
  simp only [execScrubBurstComplete, hb, source]

/-- Settles O36: whichever source the burst has, its completion leaves the content that the write beats make. -/
theorem aWriteBurstWritesItsLanes : Obligations.AWriteBurstWritesItsLanes := by
  intro s b hb write distinct _ _
  have written : burstWrites b s = { s with sram := writeBeats b.addrs b.lanes b.data s.sram } := by
    rw [burstWrites, write]
  have bytes {t : State} (ht : content t = content (burstWrites b s)) :
      (∀ (k n : Nat) (hk : k < b.addrs.length) (hl : k < b.lanes.length) (hd : k < b.data.length), n < 4 →
        t.sramByte (laneKey b.addrs[k] n) =
          if b.lanes[k].getLsbD n = true then b.data[k].extractLsb' (8 * n) 8
          else s.sramByte (laneKey b.addrs[k] n)) ∧
      ∀ key : Nat, (∀ a ∈ b.addrs, ∀ n < 4, laneKey a n ≠ key) → t.sramByte key = s.sramByte key := by
    refine ⟨fun k n hk hl hd hn => ?_, fun key outside => ?_⟩
    · rw [sramByte_of_content ht, written, State.sramByte, read_writeBeats_beat _ _ _ _ distinct hk hl hd hn]
      split <;> rfl
    · rw [sramByte_of_content ht, written, State.sramByte, read_writeBeats_other _ _ _ _ outside]
      rfl
  cases source : b.source with
  | port p => exact ⟨_, exec_portBurstComplete hb source, bytes (content_portCompletion p b s)⟩
  | scrub => exact ⟨_, exec_scrubBurstComplete hb source, bytes (content_scrubCompletion b s)⟩

/-! ## The completion of a port's burst (R129) -/

/-- The end of a binding reads and changes nothing of the sequencer. -/
theorem unboundFrom_idled (bound : Option WinIdx) (s : State) :
    unboundFrom bound (idled s) = idled (unboundFrom bound s) := by
  have drain (i : WinIdx) (t : State) : drained i (idled t) = idled (drained i t) := by
    unfold drained
    rw [apply_ite idled, apply_ite idled]
    rfl
  cases bound with
  | none => rfl
  | some i =>
    simp only [unboundFrom, unbound]
    rw [apply_ite idled, ← drain]
    rfl

/-- Outside a soft reset the completion makes the SRAM idle and takes the decision that is due. -/
theorem afterBurst_of_running {s : State} (h : s.softReset = false) : afterBurst s = grantDecision (idled s) := by
  rw [afterBurst_eq, h]
  rfl

section Settling
variable {s : State} {p : Port} {e : Entry} {es : List Entry}

/-- The entry under way leaves with its response, and the settled ones behind it (R7, R8). -/
theorem settleBurst_of_kept (data : List Word) (h : (s.port p).pending = e :: es) (kept : e.dropped = false) :
    settleBurst p data s = answeredAt p ⟨[], e, es⟩ (burstResponse e data) s := by
  have standing : stands s p ⟨[], e, es⟩ := ⟨h, fun x hx => (List.not_mem_nil hx).elim⟩
  rw [← depart_settle standing]
  simp [settleBurst, setEntry, h, kept]

/-- A dropped entry leaves without a response (R15). -/
theorem settleBurst_of_dropped (data : List Word) (h : (s.port p).pending = e :: es) (dropped : e.dropped = true) :
    settleBurst p data s = followed p es s := by
  simp [settleBurst, h, dropped, depart_eq, followed]

end Settling

theorem burstResponse_of_read {e : Entry} (data : List Word) (h : e.access.kind = .read) :
    burstResponse e data = ⟨.ok, none, data⟩ := by
  simp [burstResponse, h, okResponse]

/-- A completion outside a soft reset, by what it makes of the port's oldest entry. -/
theorem exec_portBurstComplete_settled {s v : State} {b : Burst} {p : Port} (hb : s.seq.burst = some b)
    (source : b.source = .port p) (soft : s.softReset = false)
    (settled : settleBurst p (readData b s) (releaseBound b.bound (burstWrites b s)) = v) :
    exec .portBurstComplete s = .next (grantDecision (idled v)) := by
  have kept := (lifeKept_settleBurst p (readData b s) _).before (lifeKept_releaseBound b.bound (burstWrites b s))
  have soft_kept : v.softReset = false := by
    rw [← settled, kept.softReset, ← soft]
    unfold burstWrites
    split <;> rfl
  rw [exec_portBurstComplete hb source, portCompletion, settled, afterBurst_of_running soft_kept]

/-- Settles O35: the writes and the end of the binding make the state `u`, in which the entry leaves. -/
theorem portBurstCompletes : Obligations.PortBurstCompletes := by
  intro s u b p e es hb source soft engine hp kind hu
  have written : burstWrites b s = { s with
      sram := if b.kind = .write then writeBeats b.addrs b.lanes b.data s.sram else s.sram } := by
    unfold burstWrites
    cases b.kind <;> rfl
  have engine_written : engineMatches (burstWrites b s) := by rw [written]; exact engine
  have released : u = idled (releaseBound b.bound (burstWrites b s)) := by
    rw [releaseBound_eq _ _ engine_written, ← unboundFrom_idled, hu, written]
    rfl
  have pending : ((releaseBound b.bound (burstWrites b s)).port p).pending = e :: es := by
    rw [releaseBound_port, written]
    exact hp
  have answered (kept : e.dropped = false) : exec .portBurstComplete s =
      .next (grantDecision (answeredAt p ⟨[], e, es⟩ (burstResponse e (readData b s)) u)) := by
    rw [released]
    exact exec_portBurstComplete_settled hb source soft (settleBurst_of_kept _ pending kept)
  refine ⟨fun kept read => ?_, fun kept write => ?_, fun dropped => ?_⟩
  · rw [answered kept, burstResponse_of_read _ (kind.trans read)]
    rfl
  · rw [answered kept, burstResponse, kind, write]
    cases e.decision with
    | admitted addrs lanes trimmed bound => cases trimmed <;> rfl
    | allAborted | refused | routed | served => rfl
  · rw [released]
    exact exec_portBurstComplete_settled hb source soft (settleBurst_of_dropped _ pending dropped)

end Sys2Proof.Bursts
end

section
/-! PROOFS. Every command taken once, for the SRAM content and the grant decision together: all but the burst
completions and power-on leave the content, and all leave no decision due (spec/07 R124, R127, R129, R131). -/

namespace Sys2Proof.Bursts
open Sys2Proof.Machine Sys2Proof.Safety

/-! ## The stage: what the grant decision and the SRAM read from -/

/-- What of a state says which source is a candidate, what stands in the way of a grant, and what the SRAM holds. -/
structure Stage where
  pending : Port → List Entry
  seq : Sequencer
  scrub : ScrubEngine
  softReset : Bool
  porst : Bool
  content : Memory × Nat

/-- The stage of a state. -/
def stage (s : State) : Stage where
  pending p := (s.port p).pending
  seq := s.seq
  scrub := s.scrub
  softReset := s.softReset
  porst := s.porst
  content := content s

section SameStage
variable {s t : State}

theorem pending_of_stage (h : stage t = stage s) (p : Port) : (t.port p).pending = (s.port p).pending :=
  congrFun (congrArg Stage.pending h) p

theorem seq_of_stage (h : stage t = stage s) : t.seq = s.seq := congrArg Stage.seq h
theorem scrub_of_stage (h : stage t = stage s) : t.scrub = s.scrub := congrArg Stage.scrub h
theorem softReset_of_stage (h : stage t = stage s) : t.softReset = s.softReset := congrArg Stage.softReset h
theorem porst_of_stage (h : stage t = stage s) : t.porst = s.porst := congrArg Stage.porst h
theorem content_of_stage (h : stage t = stage s) : content t = content s := congrArg Stage.content h

theorem noGrantDue_of_stage (h : stage t = stage s) (hs : noGrantDue s) : noGrantDue t :=
  Admission.noGrantDue_of_same (pending_of_stage h) (seq_of_stage h) (scrub_of_stage h) (softReset_of_stage h)
    (porst_of_stage h) hs

end SameStage

/-! ### Operations that leave the stage -/

@[simp] theorem stage_setWin (i : WinIdx) (w : Window) (s : State) : stage (s.setWin i w) = stage s := rfl
@[simp] theorem stage_raise (c : BitVec 5) (s : State) : stage (s.raise c) = stage s := rfl
@[simp] theorem stage_removeExpiry (i : WinIdx) (s : State) : stage (removeExpiry i s) = stage s := rfl
@[simp] theorem stage_orphanPort (i : WinIdx) (p : Port) (s : State) : stage (orphanPort i p s) = stage s := rfl
@[simp] theorem stage_lowerRef (i : WinIdx) (s : State) : stage (lowerRef i s) = stage s := rfl
@[simp] theorem stage_answerHead (r : Request) (outcome : ReplyOutcome) (s : State) :
    stage (answerHead r outcome s) = stage s := rfl

theorem stage_setResult (c : ResultCode) (w : Option WinIdx) (time : LeaseTime) (s : State) :
    stage (setResult c w time s) = stage s := rfl

/-- A port replaced with its pending list kept. -/
theorem stage_setPort (p : Port) {x : Piu} {s : State} (h : x.pending = (s.port p).pending) :
    stage (s.setPort p x) = stage s := by
  have pending : (fun q => ((s.setPort p x).port q).pending) = fun q => (s.port q).pending := by
    funext q
    by_cases hq : q = p
    · rw [hq, State.port_setPort_self, h]
    · rw [State.port_setPort_ne s x hq]
  simp only [stage, pending]
  rfl

@[simp] theorem stage_enterPhase (i : WinIdx) (ph : Phase) (c : Code) (s : State) :
    stage (enterPhase i ph c s) = stage s := by
  simp only [enterPhase]
  split <;> rfl

@[simp] theorem stage_enterHeld (i : WinIdx) (s : State) : stage (enterHeld i s) = stage s :=
  stage_enterPhase _ _ _ _

@[simp] theorem stage_renewWindow (i : WinIdx) (b : Code) (s : State) : stage (renewWindow i b s) = stage s := by
  simp [renewWindow]

@[simp] theorem stage_enterFirst (i : WinIdx) (s : State) : stage (enterFirst i s) = stage s := by
  simp [enterFirst, apply_ite stage]

theorem stage_lowerRefs (fs : List Frame) (s : State) : stage (lowerRefs fs s) = stage s := by
  induction fs generalizing s with
  | nil => rfl
  | cons f fs ih => simp [lowerRefs, ih, apply_ite stage]

theorem stage_emptyStack (p : Port) (s : State) : stage (emptyStack p s) = stage s :=
  stage_lowerRefs (s.scopes.get p) s

theorem stage_createWindow (n : NewWindow) (s : State) : stage (createWindow n s).1 = stage s := by
  unfold createWindow
  cases creationFault n s with
  | some code => rfl
  | none => cases freeWindow s <;> simp [actionFailed, actionDone]

theorem stage_applyAmend (i : WinIdx) (a : ActionRecord) (s : State) : stage (applyAmend i a s) = stage s := by
  simp [applyAmend, allPorts, orphanRemoved, apply_ite stage]

theorem stage_faultEvent (p : Port) (reason : Reason) (kind : FaultKind) (a : PortAddr) (w : Option WinIdx)
    (s : State) : stage (faultEvent p reason kind a w s) = stage s := by
  have recorded (r : FaultRecord) (t : State) : stage (recordFault r t) = stage t := by
    simp only [recordFault]
    split <;> rfl
  have stopped (t : State) : stage (stopOnFault p t) = stage t := by
    unfold stopOnFault
    split
    · rw [stage_raise, stage_setPort]; rfl
    · rfl
  simp only [faultEvent]
  rw [stopped, stage_setPort, recorded]
  rfl

/-- The word of a control read is supplied without the ports, the sequencer and the engine (R13, R71, R104). -/
theorem stage_controlRead (p : Port) (acc : Access) (s : State) : stage (controlRead p acc s).2 = stage s := by
  unfold controlRead
  split
  · unfold serveReply
    split <;> rfl
  · split <;> rfl

/-! ## Commands that only a grant decision ends -/

/-- From `s` to `t` no byte of the SRAM changed, and no grant decision came due. -/
structure Calm (s t : State) : Prop where
  content : content t = content s
  due : noGrantDue s → noGrantDue t

theorem Calm.refl (s : State) : Calm s s := ⟨rfl, id⟩

theorem Calm.trans {s t u : State} (h : Calm s t) (k : Calm t u) : Calm s u :=
  ⟨k.content.trans h.content, fun hs => k.due (h.due hs)⟩

theorem calm_of_stage {s t : State} (h : stage t = stage s) : Calm s t :=
  ⟨content_of_stage h, noGrantDue_of_stage h⟩

/-- Whatever an event leaves due, the decision that ends it takes. -/
theorem calm_granted {s t : State} (h : content t = content s) : Calm s (grantDecision t) :=
  ⟨(content_grantDecision t).trans h, fun _ => noGrantDue_grantDecision t⟩

theorem calm_ite {c : Prop} [Decidable c] {s t u : State} (h : Calm s t) (k : Calm s u) :
    Calm s (if c then t else u) := by
  split
  · exact h
  · exact k

/-! ## Control accesses: the one acceptance without a grant decision -/

/-- The head of a list that took an entry which is not READY was its head before, if it is READY: with fewer than two
places taken, either the head stays or the new entry comes first. -/
theorem head_of_leaving_append {l : List Entry} {e x : Entry} {xs : List Entry} (places : l.length < 2)
    (he : e.progress ≠ .ready) (h : (leaving (l ++ [e])).2 = x :: xs) (hx : x.progress = .ready) :
    ∃ ys, l = x :: ys := by
  have alone : (leaving [e]).2 ≠ x :: xs := by
    intro h
    by_cases hs : e.progress = .settled
    · rw [leaving_singleton hs] at h; cases h
    · simp only [leaving, beq_iff_eq, hs, if_false] at h
      exact he ((List.cons.inj h).1 ▸ hx)
  cases l with
  | nil => exact absurd h alone
  | cons y ys =>
    obtain rfl : ys = [] := List.eq_nil_of_length_eq_zero (by rw [List.length_cons] at places; omega)
    by_cases hy : y.progress = .settled
    · refine absurd ?_ alone
      simpa [leaving, hy] using h
    · simp only [List.cons_append, leaving, beq_iff_eq, hy, if_false] at h
      exact ⟨[], by rw [(List.cons.inj h).1]⟩

/-- An entry that is not READY takes a place, and what leaves before it makes no candidate (R8, R122). -/
theorem calm_enterPending {s u : State} {p : Port} {e : Entry} (hu : stage u = stage s)
    (places : (s.port p).pending.length < 2) (he : e.progress ≠ .ready) : Calm s (enterPending p e u) := by
  have kept := lifeKept_enterPending p e u
  refine ⟨(content_of_lifeKept kept).trans (content_of_stage hu), fun hs => ?_⟩
  rcases noGrantDue_of_stage hu hs with h | h | h | ⟨engine, ports⟩
  · exact .inl h
  · exact .inr (.inl h)
  · exact .inr (.inr (.inl h))
  · refine .inr (.inr (.inr ⟨engine, fun q => ?_⟩))
    rw [← Bool.not_eq_true, portCandidate_iff]
    rintro ⟨x, xs, hx, ready⟩
    have candidate : portCandidate u q = true := by
      rw [portCandidate_iff]
      by_cases hq : q = p
      · subst hq
        rw [enterPending, depart, State.port_setPort_self, State.port_setPort_self] at hx
        rw [← pending_of_stage hu q] at places
        obtain ⟨ys, hl⟩ := head_of_leaving_append places he hx ready
        exact ⟨x, ys, hl, ready⟩
      · rw [enterPending, depart, State.port_setPort_ne _ _ hq, State.port_setPort_ne _ _ hq] at hx
        exact ⟨x, xs, hx, ready⟩
    rw [ports q] at candidate
    cases candidate

/-- Only an admitted READ is READY at its acceptance (R7). -/
theorem newEntry_refused_not_ready (acc : Access) (reason : Reason) :
    (newEntry acc (.refused reason)).progress ≠ .ready := by
  cases hk : acc.kind <;> simp [newEntry, hk, blankEntry, Entry.settle]

theorem newEntry_served_not_ready (acc : Access) (word : Word) : (newEntry acc (.served word)).progress ≠ .ready := by
  cases hk : acc.kind <;> simp [newEntry, hk, blankEntry, Entry.settle]

theorem newEntry_write_not_ready {acc : Access} (dec : Decision) (h : acc.kind = .write) :
    (newEntry acc dec).progress ≠ .ready := by
  simp [Admission.newEntry_write dec h, entryAtAcceptance, h]

theorem places_of_canAccept {s : State} {p : Port} {acc : Access} (h : canAccept s p acc = true) :
    (s.port p).pending.length < 2 := by
  simp only [canAccept, Bool.and_eq_true, decide_eq_true_eq] at h
  exact h.1.2

section ControlAcceptance
variable {s : State} {p : Port} {acc : Access}

theorem calm_refuseControl (places : (s.port p).pending.length < 2) (reason : Reason) :
    Calm s (refuseControl p acc reason s) :=
  calm_enterPending (stage_faultEvent _ _ _ _ _ s) places (newEntry_refused_not_ready acc reason)

theorem calm_serveControl (places : (s.port p).pending.length < 2) : Calm s (serveControl p acc s) :=
  calm_enterPending (stage_controlRead p acc s) places (newEntry_served_not_ready acc _)

theorem calm_acceptControl (places : (s.port p).pending.length < 2) : Calm s (acceptControl p acc s) := by
  unfold acceptControl
  refine calm_ite (calm_refuseControl places _) (calm_ite (calm_refuseControl places _) ?_)
  cases hk : acc.kind with
  | read => exact calm_serveControl places
  | write => exact calm_enterPending rfl places (newEntry_write_not_ready _ hk)

end ControlAcceptance

/-! ## Control writes leave the SRAM -/

theorem content_requestArrival (r : Request) (s : State) : content (requestArrival r s) = content s := by
  simp only [requestArrival]
  split
  · rfl
  · split <;> rfl

/-- A request that needs a ticket arrives, or is refused NO_TICKET (R85, R91). -/
theorem content_ticketed {c : Prop} [Decidable c] (r : Request) (window : Option WinIdx) (s : State) :
    content (if c then ownerRefused s .noTicket window else ownerOk (requestArrival r s)).1 = content s := by
  split
  · rfl
  · exact content_requestArrival r s

theorem content_renewByPort (p : Port) (i : WinIdx) (tag : Tag) (s : State) :
    content (renewByPort p i tag s).1 = content s := by
  simp only [renewByPort]
  split
  · rfl
  · split
    case h_6 | h_7 =>
      split
      · exact content_ticketed _ _ s
      · exact content_of_stage (stage_renewWindow _ _ s)
    all_goals rfl

theorem content_releaseHold (p : Port) (i : WinIdx) (s : State) : content (releaseHold p i s) = content s := by
  simp only [releaseHold]
  split
  · exact content_of_lifeKept (lifeKept_enterDraining i s)
  · rfl

theorem content_carryRelease (p : Port) (words : List Word) (s : State) :
    content (carryRelease p words s).1 = content s := by
  simp only [carryRelease]
  split
  · rfl
  · simp only [releaseByPort]
    split
    · rfl
    · split
      · rfl
      · exact content_releaseHold p _ s

theorem content_carryPush (p : Port) (words : List Word) (s : State) :
    content (carryPush p words s).1 = content s := by
  have pushed (i : WinIdx) (c : Rights) : content (pushOver p i c s).1 = content s := by
    unfold pushOver
    split
    · rfl
    · split
      · rfl
      · split <;> rfl
  simp only [carryPush]
  split
  · rfl
  · split
    · rfl
    · split
      · rfl
      · exact pushed _ _

theorem content_carryPop (p : Port) (words : List Word) (s : State) : content (carryPop p words s).1 = content s := by
  unfold carryPop
  split
  · rfl
  · simp only [ownerOk]
    split <;> rfl

/-- No owning block of a control write touches the SRAM (R12). -/
theorem content_ownerOf (n : Nat) (p : Port) (words : List Word) (s : State) :
    content (ownerOf n p words s).1 = content s := by
  unfold ownerOf
  split
  · exact content_ticketed _ _ s
  · simp only [carryRenew]
    split
    · rfl
    · exact content_renewByPort _ _ _ s
  · simp only [carryWithdraw]
    split <;> rfl
  · exact content_carryRelease p words s
  · exact content_carryPush p words s
  · exact content_carryPop p words s
  · rfl
  · rfl

theorem content_carryRouted (n : Nat) (p : Port) (place : Nat) (e : Entry) (w : Word) (s : State) :
    content (carryRouted (ownerOf n) p place e w s) = content s := by
  refine Eq.trans ?_ (content_ownerOf n p (e.kept ++ [w]) s)
  simp only [carryRouted, settleRouted]
  split
  · rfl
  · exact content_faultEvent _ _ _ _ _ _

theorem content_finishRouted (n : Nat) (p : Port) (place : Nat) (e : Entry) (w : Word) (s : State) :
    content (finishRouted (ownerOf n) p place e w s) = content s :=
  (content_of_lifeKept (lifeKept_depart p _)).trans (content_carryRouted n p place e w s)

theorem calm_controlWrite (n : Nat) (p : Port) (w : Word) (s : State) : Calm s (controlWrite (ownerOf n) n p w s) := by
  unfold controlWrite
  split
  · exact calm_granted (content_finishRouted n p _ _ w s)
  · exact .refl s

theorem content_dataBeat (p : Port) (w : Word) (s : State) : content (dataBeat p w s) = content s := by
  unfold dataBeat
  split
  · rfl
  · split
    · unfold beatToEntry
      split
      · rfl
      · split
        · exact content_finishRouted _ p _ _ w s
        all_goals rfl
    · rfl

/-! ## Resets and expiries -/

theorem content_foldl {α : Type} {f : State → α → State} (h : ∀ s x, content (f s x) = content s) (l : List α)
    (s : State) : content (l.foldl f s) = content s := by
  induction l generalizing s with
  | nil => rfl
  | cons x l ih => exact (ih _).trans (h s x)

theorem content_meetReset (p : Port) (s : State) (meeting : ResetMeeting) :
    content (meetReset p s meeting) = content s := by
  unfold meetReset
  split
  · split
    · split
      · exact content_of_lifeKept (lifeKept_deadlineSettled p _ _ s)
      · rfl
    · rfl
  · split
    · exact content_carryRouted _ p _ _ _ s
    · rfl

theorem content_portReset (p : Port) (order : DiscardOrder) (s : State) :
    content (portReset p order s) = content s := by
  have dropped (t : State) : content (dropRequests p t) = content t := rfl
  rw [portReset, content_of_lifeKept (lifeKept_emptyStack p _), dropped,
    content_of_lifeKept (lifeKept_releaseEntries _ _)]
  rfl

/-- With every list empty and the engine IDLE no source is a candidate. -/
theorem noCandidate_resetBlocks (s : State) : noCandidate (resetBlocks s) :=
  ⟨rfl, fun p => by cases p <;> rfl⟩

theorem noGrantDue_softResetFinish (s : State) : noGrantDue (softResetFinish s) :=
  .inr (.inr (.inr (noCandidate_resetBlocks s)))

/-- A soft reset ends at once with no candidate left, or stands in the way of a grant from its beginning (R174). -/
theorem calm_softResetBegin (s : State) : Calm s (softResetBegin s) := by
  have aborted := lifeKept_abortAll { s with softReset := true }
  have content_aborted : content (abortAll { s with softReset := true }) = content s := content_abortAll _
  unfold softResetBegin
  refine calm_ite (.refl s) ?_
  simp only
  split
  · exact ⟨(content_softResetFinish _).trans content_aborted, fun _ => noGrantDue_softResetFinish _⟩
  · split
    · exact ⟨content_aborted, fun _ => .inr (.inl aborted.softReset)⟩
    · exact ⟨rfl, fun _ => .inr (.inl rfl)⟩

theorem calm_expiryEvent (ph : Phase) (i : WinIdx) (s : State) : Calm s (expiryEvent ph i s) := by
  unfold expiryEvent
  refine calm_ite (.refl s) (calm_ite ?_ (calm_ite ?_ (.refl s)))
  · split
    · exact .refl s
    · exact calm_granted (content_of_lifeKept (lifeKept_expireHead _ s))
  · exact calm_granted (content_of_lifeKept (lifeKept_leaseTick s))

theorem calm_lclkPeriod (order : List LclkPart) (s : State) : Calm s (lclkPeriod order s) :=
  calm_granted (content_of_lifeKept
    ((lifeKept_countPeriod s).trans (lifeKept_runParts (order ++ wholePeriod) (countPeriod s, tickDue s))))

/-! ## Frames and actions -/

/-- The end of a frame, by its update. -/
theorem calm_frameUpdate {kind : FrameEnd} {update : Payload → State → State} (h : ∀ x t, Calm t (update x t))
    (s : State) : Calm s (frameUpdate kind update s) :=
  calm_ite (Calm.trans (calm_of_stage (t := closeFrame false s) rfl) (h _ _)) (.refl s)

/-- The end of an ACTION frame, by its action. -/
theorem calm_actionFrame {code : BitVec 5} {act : ActionRecord → State → ActionOut}
    (h : ∀ a t, Calm t (act a t).1) (s : State) : Calm s (actionFrame code act s) :=
  calm_frameUpdate (fun x t => (h (actionRecordOf x) t).trans (calm_of_stage (stage_setResult _ _ _ _))) s

theorem calm_onWindow {a : ActionRecord} {act : WinIdx → State → ActionOut} {s : State}
    (h : ∀ i, Calm s (act i s).1) : Calm s (onWindow a act s).1 := by
  unfold onWindow
  split
  · exact .refl s
  · exact h _

theorem calm_onHead {a : ActionRecord} {act : Request → State → ActionOut} {s : State}
    (h : ∀ r, Calm s (act r s).1) : Calm s (onHead a act s).1 := by
  unfold onHead
  split
  · exact .refl s
  · split
    · exact h _
    · exact .refl s

/-- An action taken on a condition. -/
theorem calm_actionIf {c : Prop} [Decidable c] {s t : State} {code : ResultCode} {done window : Option WinIdx}
    (h : Calm s t) : Calm s (if c then actionDone t done else actionFailed s code window).1 := by
  split
  · exact h
  · exact .refl s

theorem calm_grantHead (a : ActionRecord) (r : Request) (s : State) : Calm s (grantHead a r s).1 := by
  unfold grantHead
  split
  · rename_i f _
    have created := stage_createWindow (grantOperands r.port r.tag f a) s
    unfold grantNew
    split
    · rename_i t i hc
      rw [hc] at created
      exact calm_of_stage created
    · exact .refl s
  · rename_i i _
    have renewed : stage (answerHead r (.granted i) (renewWindow i a.budget s)) = stage s := by simp
    unfold grantExtend
    split
    · exact calm_of_stage renewed
    · exact .refl s

theorem calm_amendWindow (a : ActionRecord) (i : WinIdx) (s : State) : Calm s (amendWindow a i s).1 := by
  unfold amendWindow
  split
  · exact .refl s
  · split
    · exact .refl s
    · split
      · exact .refl s
      · exact calm_of_stage (stage_applyAmend i a s)

theorem calm_resumePort (p : Port) (s : State) : Calm s (resumePort p s).1 :=
  calm_actionIf (calm_of_stage (stage_setPort p rfl))

theorem calm_ackFault (slot : BitVec 6) (s : State) : Calm s (ackFault slot s).1 := by
  unfold ackFault
  split
  · exact calm_actionIf (calm_of_stage rfl)
  · exact .refl s

/-- A PAUSED engine is no candidate (R142). -/
theorem calm_scrubHold (s : State) : Calm s (scrubHold s).1 := by
  refine calm_actionIf ⟨rfl, fun hs => ?_⟩
  rcases hs with h | h | h | ⟨-, ports⟩
  · exact .inl h
  · exact .inr (.inl h)
  · exact .inr (.inr (.inl h))
  · exact .inr (.inr (.inr ⟨rfl, ports⟩))

theorem calm_scrubResume (s : State) : Calm s (scrubResume s).1 := calm_actionIf (calm_granted rfl)

/-- The fill pattern makes no candidate (R141). -/
theorem calm_applyPattern (x : Payload) (s : State) : Calm s (applyPattern x s) := ⟨rfl, id⟩

theorem stage_clearFlags (p : Port) (mask : BitVec 5) (s : State) :
    stage (s.setPort p ((s.port p).clearFlags mask)) = stage s := stage_setPort p rfl

theorem stage_applyArm (p : Port) (x : Payload) (s : State) : stage (applyArm p x s) = stage s := stage_setPort p rfl

theorem stage_selectorBit (b : Bool) (s : State) : stage (selectorBit b s) = stage s := by
  simp only [selectorBit]
  split <;> rfl

/-! ## Every command -/

/-- The commands at which the SRAM can change: completions of a burst, and power-on (R127, R129, R131). -/
def changesSram : List Instr :=
  [.portBurstComplete, .scrubBurstComplete, .fillComplete, .softResetEnd, .porstAssert, .powerOnReset]

/-- Every other command leaves the SRAM as it was and no grant decision due. -/
theorem exec_calm (c : Instr) (s : State) (h : c ∉ changesSram) : ∃ t, exec c s = .next t ∧ Calm s t := by
  cases c with
  | portBurstComplete | scrubBurstComplete | fillComplete | softResetEnd | porstAssert | powerOnReset =>
    exact absurd (by decide) h
  | acceptDataAccess p acc =>
    exact ⟨_, rfl, calm_ite (calm_granted (content_of_lifeKept (lifeKept_acceptData p acc s))) (.refl s)⟩
  | acceptControlAccess p acc =>
    refine ⟨_, rfl, ?_⟩
    split
    · rename_i accepted
      exact calm_acceptControl (places_of_canAccept (Bool.and_eq_true_iff.1 accepted).1)
    · exact .refl s
  | replyRead p =>
    refine ⟨_, rfl, ?_⟩
    split
    · rename_i accepted
      exact calm_serveControl (places_of_canAccept accepted)
    · exact .refl s
  | writeDataBeat p w => exact ⟨_, rfl, calm_ite (calm_granted (content_dataBeat p w s)) (.refl s)⟩
  | newRequest p w => exact ⟨_, rfl, calm_controlWrite 0 p w s⟩
  | portRenew p w => exact ⟨_, rfl, calm_controlWrite 2 p w s⟩
  | withdraw p w => exact ⟨_, rfl, calm_controlWrite 3 p w s⟩
  | release p w => exact ⟨_, rfl, calm_controlWrite 4 p w s⟩
  | scopePush p w => exact ⟨_, rfl, calm_controlWrite 5 p w s⟩
  | scopePop p w => exact ⟨_, rfl, calm_controlWrite 6 p w s⟩
  | portClearFlags p w => exact ⟨_, rfl, calm_controlWrite 7 p w s⟩
  | dataDeadline p place =>
    exact ⟨_, rfl, calm_ite (calm_granted (content_of_lifeKept (lifeKept_deadlineIf _ p place s))) (.refl s)⟩
  | lclkPeriod order => exact ⟨_, rfl, calm_ite (calm_lclkPeriod order s) (.refl s)⟩
  | leaseTick => exact ⟨_, rfl, calm_ite (calm_granted (content_of_lifeKept (lifeKept_leaseTick s))) (.refl s)⟩
  | onsetExpiry i | holdExpiry i | taperExpiry i => exact ⟨_, rfl, calm_expiryEvent _ i s⟩
  | burstGrant => exact ⟨_, rfl, calm_granted rfl⟩
  | drainEnd i => exact ⟨_, rfl, calm_ite (calm_granted (content_of_lifeKept (lifeKept_endDrain i s))) (.refl s)⟩
  | portResetAssert p order =>
    have met := content_foldl (content_meetReset p) order.first s
    exact ⟨_, rfl, calm_ite (.refl s) (calm_granted ((content_portReset p _ _).trans met))⟩
  | portResetRelease p => exact ⟨_, rfl, calm_ite (calm_of_stage (stage_setPort p rfl)) (.refl s)⟩
  | malformedFrame =>
    refine ⟨_, rfl, calm_of_stage ?_⟩
    split <;> rfl
  | readOnlyFrame | nullAction => exact ⟨_, rfl, calm_frameUpdate (fun _ t => .refl t) s⟩
  | attnEnable | attnAck | clock | fixedMap =>
    exact ⟨_, rfl, calm_frameUpdate (fun _ _ => calm_of_stage (by rfl)) s⟩
  | scrubUpdate => exact ⟨_, rfl, calm_frameUpdate calm_applyPattern s⟩
  | portArmUpdate =>
    refine ⟨_, rfl, ?_⟩
    split
    · exact calm_frameUpdate (fun x t => calm_of_stage (stage_applyArm _ x t)) s
    all_goals exact .refl s
  | badAction =>
    refine ⟨_, rfl, calm_of_stage ?_⟩
    split
    · split <;> rfl
    all_goals rfl
  | create => exact ⟨_, rfl, calm_actionFrame (fun _ t => calm_of_stage (stage_createWindow _ t)) s⟩
  | grantHead => exact ⟨_, rfl, calm_actionFrame (fun a t => calm_onHead fun r => calm_grantHead a r t) s⟩
  | refuseHead =>
    exact ⟨_, rfl, calm_actionFrame (fun _ t => calm_onHead fun _ => calm_of_stage (stage_answerHead _ _ t)) s⟩
  | amend => exact ⟨_, rfl, calm_actionFrame (fun a t => calm_onWindow fun i => calm_amendWindow a i t) s⟩
  | renew =>
    exact ⟨_, rfl, calm_actionFrame
      (fun _ t => calm_onWindow fun i => calm_actionIf (calm_of_stage (stage_renewWindow i _ t))) s⟩
  | activate =>
    exact ⟨_, rfl, calm_actionFrame
      (fun _ t => calm_onWindow fun i => calm_actionIf (calm_of_stage (stage_enterHeld i t))) s⟩
  | revoke =>
    exact ⟨_, rfl, calm_actionFrame (fun _ t => calm_onWindow fun i =>
      calm_actionIf (calm_granted (content_of_lifeKept (lifeKept_enterDraining i t)))) s⟩
  | unwind => exact ⟨_, rfl, calm_actionFrame (fun a t => calm_of_stage (stage_emptyStack a.port t)) s⟩
  | resumePort =>
    exact ⟨_, rfl, calm_actionFrame (fun a t => calm_resumePort a.port t) s⟩
  | clearFlags =>
    exact ⟨_, rfl, calm_actionFrame (fun a t => calm_of_stage (stage_clearFlags a.port a.mask t)) s⟩
  | clearOverflow => exact ⟨_, rfl, calm_actionFrame (fun _ _ => calm_of_stage (by rfl)) s⟩
  | ackFault => exact ⟨_, rfl, calm_actionFrame (fun a t => calm_ackFault a.index t) s⟩
  | scrubHold => exact ⟨_, rfl, calm_actionFrame (fun _ t => calm_scrubHold t) s⟩
  | scrubResume => exact ⟨_, rfl, calm_actionFrame (fun _ t => calm_scrubResume t) s⟩
  | softReset =>
    have begun (t : State) : Calm t (softResetBegin (setResult .done none t.clock.time t)) :=
      (calm_of_stage (stage_setResult _ _ _ t)).trans (calm_softResetBegin _)
    exact ⟨_, rfl, calm_frameUpdate (fun _ t => begun t) s⟩
  | frameOpen => exact ⟨_, rfl, calm_ite (.refl s) (calm_ite (calm_of_stage rfl) (calm_of_stage rfl))⟩
  | managementClockPeriod dataIn =>
    refine ⟨_, rfl, calm_ite (.refl s) (calm_of_stage ?_)⟩
    split
    · rfl
    · exact stage_selectorBit dataIn s
    · rfl

/-- Settles O50: the commands named are those at which the SRAM can change. -/
theorem onlyCompletionsAndPowerOnChangeTheSram : Obligations.OnlyCompletionsAndPowerOnChangeTheSram := by
  intro c s t h other key
  obtain ⟨u, hu, calm⟩ := exec_calm c s other
  rw [hu] at h
  cases h
  exact sramByte_of_content calm.content key

/-! ## Completions and power-on -/

/-- From `s` to `t` the SRAM content kept its canonical form, and no grant decision came due. -/
structure Steady (s t : State) : Prop where
  canonical : sramCanonical s → sramCanonical t
  due : noGrantDue s → noGrantDue t

theorem Steady.refl (s : State) : Steady s s := ⟨id, id⟩

theorem Calm.steady {s t : State} (h : Calm s t) : Steady s t := ⟨sramCanonical_of_content h.content, h.due⟩

theorem steady_ite {c : Prop} [Decidable c] {s t u : State} (h : Steady s t) (k : Steady s u) :
    Steady s (if c then t else u) := by
  split
  · exact h
  · exact k

/-- With the SRAM idle a soft reset ends with no candidate left, or the decision that is due is taken. -/
theorem noGrantDue_afterBurst (s : State) : noGrantDue (afterBurst s) := by
  rw [afterBurst_eq]
  split
  · exact noGrantDue_softResetFinish _
  · exact noGrantDue_grantDecision _

theorem steady_portCompletion (p : Port) (b : Burst) (s : State) : Steady s (portCompletion p b s) :=
  ⟨fun hs => sramCanonical_of_content (content_portCompletion p b s) (sramCanonical_burstWrites b hs),
    fun _ => noGrantDue_afterBurst _⟩

theorem steady_scrubCompletion (b : Burst) (s : State) : Steady s (scrubCompletion b s) :=
  ⟨fun hs => sramCanonical_of_content (content_scrubCompletion b s) (sramCanonical_burstWrites b hs),
    fun _ => noGrantDue_afterBurst _⟩

/-- Every command keeps the canonical form and leaves no grant decision due. -/
theorem exec_steady (c : Instr) (s : State) : ∃ t, exec c s = .next t ∧ Steady s t := by
  cases c with
  | portBurstComplete =>
    refine ⟨_, rfl, ?_⟩
    split
    · exact .refl s
    · split
      · exact steady_portCompletion _ _ s
      · exact .refl s
  | scrubBurstComplete =>
    refine ⟨_, rfl, ?_⟩
    split
    · exact .refl s
    · split
      · exact steady_scrubCompletion _ s
      · exact .refl s
  | fillComplete =>
    refine ⟨_, rfl, ?_⟩
    split
    · exact .refl s
    · exact steady_ite (steady_scrubCompletion _ s) (.refl s)
  | softResetEnd =>
    refine ⟨_, rfl, steady_ite ?_ (.refl s)⟩
    split
    · exact ⟨sramCanonical_of_content (content_afterBurst s), fun _ => noGrantDue_afterBurst s⟩
    · split
      · exact steady_portCompletion _ _ s
      · exact steady_scrubCompletion _ s
  | porstAssert => exact ⟨_, rfl, steady_ite (.refl s) ⟨fun _ => rfl, fun _ => .inr (.inr (.inl rfl))⟩⟩
  | powerOnReset =>
    exact ⟨_, rfl, steady_ite ⟨fun _ => rfl, fun _ => .inr (.inr (.inr (noCandidate_resetBlocks s)))⟩ (.refl s)⟩
  | _ =>
    refine (exec_calm _ s ?_).imp fun t h => ⟨h.1, h.2.steady⟩
    simp [changesSram]

/-- Every step is steady: on an empty queue nothing changes, and taking a command off the queue changes no stage. -/
theorem step_steady {s t : State} (h : step s = .next t) : Steady s t := by
  unfold step at h
  split at h
  · cases h; exact .refl s
  · rename_i c rest _
    obtain ⟨u, hu, k⟩ := exec_steady c { s with pending := rest }
    rw [hu] at h
    cases h
    exact ⟨k.canonical, k.due⟩

/-- Settles O51: only bytes inside the SRAM are written, each in its place, and at power-on none is left. -/
theorem everyStepKeepsTheSramCanonical : Obligations.EveryStepKeepsTheSramCanonical :=
  fun _ _ hs h => (step_steady h).canonical hs

/-- Settles O59: an event that can make a candidate, or makes the SRAM idle, ends with the decision itself. -/
theorem everyStepLeavesNoGrantDue : Obligations.EveryStepLeavesNoGrantDue :=
  fun _ _ hs h => (step_steady h).due hs

end Sys2Proof.Bursts
end

section
/-! PROOFS. The completion of a scrub burst (spec/07 R130; spec/08 R138 to R140): the group counted, the window freed
at the last one, and the next window taken. -/

namespace Sys2Proof.Scrubbing
open Sys2Proof.Machine Sys2Proof.Safety Sys2Proof.Bursts

/-! ## The next window is taken (R138) -/

/-- A take by an engine that is not IDLE keeps the engine state (R138 step 4). -/
theorem scrubTake_of_cons {s : State} {j : WinIdx} {rest : List WinIdx} (list : s.scrub.list = j :: rest)
    (busy : s.scrub.state ≠ .idle) : scrubTake s =
      { s with scrub := { s.scrub with progress := some ⟨j, 0, (s.win j).size⟩, list := rest } }.setWin j
        { s.win j with phase := .scrubbing } := by
  have same : (s.scrub.state == EngineState.idle) = false := beq_eq_false_iff_ne.2 busy
  simp only [scrubTake, list, same]
  rfl

/-- A take neither reads nor changes the sequencer. -/
theorem scrubTake_idled (s : State) : scrubTake (idled s) = idled (scrubTake s) := by
  cases list : s.scrub.list with
  | nil => simp only [scrubTake, idled, list]
  | cons j rest => simp only [scrubTake, idled, list]; rfl

/-! ## A fill completes (R140) -/

/-- The window is freed and SCRUB_DONE set, before the list is read (R140). -/
def filled (i : WinIdx) (s : State) : State :=
  ({ s with scrub := { s.scrub with progress := none } }.setWin i Window.cleared).raise causeScrubDone

theorem fillComplete_of_nil (i : WinIdx) {s : State} (list : s.scrub.list = []) :
    fillComplete i s = { filled i s with scrub := { s.scrub with progress := none, state := .idle } } := by
  simp only [fillComplete, State.raise_scrub, State.setWin_scrub, list]
  rfl

theorem fillComplete_of_cons (i : WinIdx) {s : State} {j : WinIdx} {rest : List WinIdx}
    (list : s.scrub.list = j :: rest) : fillComplete i s = scrubTake (filled i s) := by
  simp only [fillComplete, filled, State.raise_scrub, State.setWin_scrub, list]

/-- The window freed and the window taken are two, so the taken one keeps its size and its other fields. -/
theorem scrubTake_filled {i j : WinIdx} {s : State} {rest : List WinIdx} (list : s.scrub.list = j :: rest)
    (other : j ≠ i) (busy : s.scrub.state ≠ .idle) : scrubTake (filled i s) =
      (({ s with scrub := { s.scrub with progress := some ⟨j, 0, (s.win j).size⟩, list := rest } }.setWin i
        Window.cleared).setWin j { s.win j with phase := .scrubbing }).raise causeScrubDone := by
  have kept : (filled i s).win j = s.win j := by
    rw [filled, State.win_raise, State.win_setWin_ne _ _ other]
    rfl
  rw [scrubTake_of_cons (s := filled i s) list busy, kept]
  rfl

theorem fillComplete_idled (i : WinIdx) (s : State) : fillComplete i (idled s) = idled (fillComplete i s) := by
  cases list : s.scrub.list with
  | nil => rw [fillComplete_of_nil i list, fillComplete_of_nil i (s := idled s) list]; rfl
  | cons j rest =>
    rw [fillComplete_of_cons i list, fillComplete_of_cons i (s := idled s) list, ← scrubTake_idled]
    rfl

/-! ## A group is counted (R130, R139) -/

section Counting
variable {s : State} {i : WinIdx} {off rem : Nat}

theorem countGroup_of_more (progress : s.scrub.progress = some ⟨i, off, rem⟩) (more : 4 < rem) : countGroup s =
    { s with scrub := { s.scrub with progress := some ⟨i, off + 4, rem - 4⟩ } } := by
  simp only [countGroup, progress, if_neg (Nat.not_le.2 more)]

theorem countGroup_of_last (progress : s.scrub.progress = some ⟨i, off, rem⟩) (last : rem ≤ 4) :
    countGroup s = fillComplete i s := by
  simp only [countGroup, progress, if_pos last]

/-- Counting a group neither reads nor changes the sequencer. -/
theorem countGroup_idled (s : State) : countGroup (idled s) = idled (countGroup s) := by
  cases progress : s.scrub.progress with
  | none => simp only [countGroup, progress, show (idled s).scrub = s.scrub from rfl]
  | some g =>
    by_cases last : g.wordsRemaining ≤ 4
    · rw [countGroup_of_last progress last, countGroup_of_last (s := idled s) progress last, fillComplete_idled]
    · rw [countGroup_of_more progress (by omega), countGroup_of_more (s := idled s) progress (by omega)]
      rfl

end Counting

/-! ## The commands -/

section Completion
variable {s : State} {b : Burst} {i : WinIdx} {off rem : Nat}

/-- Outside a soft reset: the writes, the SRAM idle, the group counted and the decision that is due (log 22). -/
theorem scrubCompletion_of_running (write : b.kind = .write) (soft : s.softReset = false) :
    scrubCompletion b s = grantDecision (countGroup { s with
      seq := { s.seq with burst := none }, sram := writeBeats b.addrs b.lanes b.data s.sram }) := by
  have written : burstWrites b s = { s with sram := writeBeats b.addrs b.lanes b.data s.sram } := by
    rw [burstWrites, write]
  have soft_kept : (countGroup (burstWrites b s)).softReset = false := by
    rw [(lifeKept_countGroup _).softReset, written]
    exact soft
  rw [scrubCompletion, afterBurst_of_running soft_kept, ← countGroup_idled, written]
  rfl

/-- The burst under way completes its window's fill where at most its own four words remain (R140). -/
theorem lastGroupUnderWay_of_progress (hb : s.seq.burst = some b) (source : b.source = .scrub)
    (progress : s.scrub.progress = some ⟨i, off, rem⟩) : lastGroupUnderWay s = decide (rem ≤ 4) := by
  simp only [lastGroupUnderWay, hb, progress, source]
  rfl

/-- FILL_COMPLETE is the completion of a scrub burst that leaves no words remaining (R140, log 17). -/
theorem exec_fillComplete_of_last (hb : s.seq.burst = some b) (source : b.source = .scrub)
    (progress : s.scrub.progress = some ⟨i, off, rem⟩) (last : rem ≤ 4) :
    exec .fillComplete s = exec .scrubBurstComplete s := by
  have under_way : lastGroupUnderWay s = true := by
    rw [lastGroupUnderWay_of_progress hb source progress, decide_eq_true last]
  rw [exec_scrubBurstComplete hb source]
  change execFillComplete s = _
  simp only [execFillComplete, hb, if_pos under_way]

/-- With words remaining after the burst, FILL_COMPLETE does not take place (log 17). -/
theorem exec_fillComplete_of_more (hb : s.seq.burst = some b) (source : b.source = .scrub)
    (progress : s.scrub.progress = some ⟨i, off, rem⟩) (more : 4 < rem) : exec .fillComplete s = .next s := by
  have under_way : ¬ lastGroupUnderWay s = true := by
    rw [lastGroupUnderWay_of_progress hb source progress, decide_eq_true_eq]
    exact Nat.not_le.2 more
  change execFillComplete s = _
  simp only [execFillComplete, hb, if_neg under_way]

end Completion

/-- Settles O37, by what the counted group leaves: words remaining, an empty list, or a window to take. -/
theorem scrubBurstCompletes : Obligations.ScrubBurstCompletes := by
  intro s u b i off rem hb source write soft progress hu
  have engine : u.scrub = s.scrub := by rw [hu]
  have windows (j : WinIdx) : u.win j = s.win j := by rw [hu]; rfl
  have progress_u : u.scrub.progress = some ⟨i, off, rem⟩ := by rw [engine, progress]
  have completed : exec .scrubBurstComplete s = .next (grantDecision (countGroup u)) := by
    rw [exec_scrubBurstComplete hb source, scrubCompletion_of_running write soft, hu]
  refine ⟨fun more => ⟨?_, exec_fillComplete_of_more hb source progress more⟩,
    fun last list => ⟨?_, exec_fillComplete_of_last hb source progress (Nat.le_of_eq last)⟩,
    fun j rest last list other busy => ⟨?_, exec_fillComplete_of_last hb source progress (Nat.le_of_eq last)⟩⟩
  · rw [completed, countGroup_of_more progress_u more, engine]
  · rw [completed, countGroup_of_last progress_u (Nat.le_of_eq last),
      fillComplete_of_nil i (by rw [engine, list]), engine]
    rfl
  · rw [completed, countGroup_of_last progress_u (Nat.le_of_eq last),
      fillComplete_of_cons i (by rw [engine, list]),
      scrubTake_filled (by rw [engine, list]) other (by rw [engine]; exact busy), engine, windows]
    rfl

end Sys2Proof.Scrubbing
end

section
/-! PROOFS. Fault events (spec/09): where a record goes in the recorder, which flags it sets, and which port it
stops. -/

namespace Sys2Proof.Faults
open Sys2Proof.Machine Sys2Proof.Safety Sys2Proof.Requests

/-! ## Searching the slots -/

/-- The search finds the lowest slot that passes its test. -/
theorem find?_allSlots_eq_some_iff (test : Fin 8 → Bool) (n : Fin 8) :
    allSlots.find? test = some n ↔ test n = true ∧ ∀ m, m < n → test m = false := by
  simp only [allSlots, List.find?_eq_some_iff_getElem, List.getElem_finRange, List.length_finRange, Bool.not_eq_true']
  constructor
  · rintro ⟨passes, k, hk, rfl, earlier⟩
    exact ⟨passes, fun m hm => earlier m.val hm⟩
  · rintro ⟨passes, earlier⟩
    exact ⟨passes, n.val, n.isLt, rfl, fun k hk => earlier ⟨k, Nat.lt_trans hk n.isLt⟩ hk⟩

theorem slotOfKey_eq_some {f : FaultRecorder} {r x : FaultRecord} {n : Fin 8} (hx : f.slots[n] = some x)
    (same : sameKey x r) (first : ∀ m : Fin 8, m < n → ∀ y, f.slots[m] = some y → ¬ sameKey y r) :
    f.slotOfKey r = some n := by
  refine (find?_allSlots_eq_some_iff _ n).2 ⟨?_, fun m hm => ?_⟩
  · simpa only [hx] using (sameKey_iff x r).2 same
  · cases hy : f.slots[m] with
    | none => rfl
    | some y => exact Bool.eq_false_iff.2 (mt (sameKey_iff y r).1 (first m hm y hy))

theorem slotOfKey_eq_none_iff (f : FaultRecorder) (r : FaultRecord) :
    f.slotOfKey r = none ↔ ∀ (n : Fin 8) (x : FaultRecord), f.slots[n] = some x → ¬ sameKey x r := by
  refine ⟨fun h n x hx => slotOfKey_none h n hx, fun fresh => ?_⟩
  cases h : f.slotOfKey r with
  | none => rfl
  | some n =>
    obtain ⟨x, hx, same⟩ := slotOfKey_some h
    exact absurd same (fresh n x hx)

theorem emptySlot_eq_some {f : FaultRecorder} {n : Fin 8} (empty : f.slots[n] = none)
    (first : ∀ m : Fin 8, m < n → f.slots[m] ≠ none) : f.emptySlot = some n :=
  (find?_allSlots_eq_some_iff _ n).2
    ⟨Option.isNone_iff_eq_none.2 empty, fun m hm =>
      Bool.eq_false_iff.2 (mt Option.isNone_iff_eq_none.1 (first m hm))⟩

theorem emptySlot_eq_none {f : FaultRecorder} (full : ∀ n : Fin 8, f.slots[n] ≠ none) : f.emptySlot = none :=
  List.find?_eq_none.2 fun n _ => mt Option.isNone_iff_eq_none.1 (full n)

/-! ## The three cases of R151 -/

/-- A held key takes a repeat. -/
theorem record_of_held {f : FaultRecorder} {r x : FaultRecord} {n : Fin 8} (hx : f.slots[n] = some x)
    (h : f.slotOfKey r = some n) :
    f.record r = ({ f with slots := f.slots.set n (some { x with repeats := min 15 (x.repeats + 1) }) }, false) := by
  simp only [FaultRecorder.record, h, hx]
  rfl

/-- A new key takes the lowest EMPTY slot. -/
theorem record_of_empty {f : FaultRecorder} {r : FaultRecord} {n : Fin 8} (new : f.slotOfKey r = none)
    (h : f.emptySlot = some n) : f.record r = ({ f with slots := f.slots.set n (some r) }, true) := by
  simp only [FaultRecorder.record, new, h]

/-- A new key without an EMPTY slot counts in overflow. -/
theorem record_of_full {f : FaultRecorder} {r : FaultRecord} (new : f.slotOfKey r = none)
    (h : f.emptySlot = none) : f.record r = ({ f with overflow := min 255 (f.overflow + 1) }, true) := by
  simp only [FaultRecorder.record, new, h]

/-- A record takes one of the three cases. -/
theorem record_cases (f : FaultRecorder) (r : FaultRecord) :
    (∃ (n : Fin 8) (x : FaultRecord), f.slots[n] = some x ∧ sameKey x r ∧
      f.record r = ({ f with slots := f.slots.set n (some { x with repeats := min 15 (x.repeats + 1) }) }, false)) ∨
    (∀ (n : Fin 8) (x : FaultRecord), f.slots[n] = some x → ¬ sameKey x r) ∧
      ((∃ n : Fin 8, f.record r = ({ f with slots := f.slots.set n (some r) }, true)) ∨
        f.record r = ({ f with overflow := min 255 (f.overflow + 1) }, true)) := by
  cases h : f.slotOfKey r with
  | some n =>
    obtain ⟨x, hx, same⟩ := slotOfKey_some h
    exact .inl ⟨n, x, hx, same, record_of_held hx h⟩
  | none =>
    refine .inr ⟨(slotOfKey_eq_none_iff f r).1 h, ?_⟩
    cases he : f.emptySlot with
    | some n => exact .inl ⟨n, record_of_empty h he⟩
    | none => exact .inr (record_of_full h he)

/-! ## Keys apart -/

/-- No two HELD slots share a key (R150). -/
def KeysApart (v : Vector (Option FaultRecord) 8) : Prop :=
  ∀ (n m : Fin 8) (x y : FaultRecord), v[n] = some x → v[m] = some y → sameKey x y → n = m

/-- A slot takes a record whose key no other slot holds. -/
theorem KeysApart.set {v : Vector (Option FaultRecord) 8} (hv : KeysApart v) {n : Fin 8} {r : FaultRecord}
    (fresh : ∀ (m : Fin 8) (y : FaultRecord), v[m] = some y → sameKey y r → m = n) :
    KeysApart (v.set n (some r)) := by
  intro i j x y hx hy same
  rw [getElem_set_slot] at hx hy
  split at hx <;> split at hy
  · next hi hj => rw [hi, hj]
  · next hi _ =>
    cases hx
    rw [hi, fresh j y hy ⟨same.1.symm, same.2.1.symm, same.2.2.symm⟩]
  · next _ hj =>
    cases hy
    rw [hj, fresh i x hx same]
  · exact hv i j x y hx hy same

/-- Whichever case of R151 a record takes, no key is stored twice. -/
theorem KeysApart.record {f : FaultRecorder} (hf : KeysApart f.slots) (r : FaultRecord) :
    KeysApart (f.record r).1.slots := by
  obtain ⟨n, x, hx, -, h⟩ | ⟨new, ⟨n, h⟩ | h⟩ := record_cases f r
  · rw [h]
    exact hf.set fun m y hy same => hf m n y x hy hx same
  · rw [h]
    exact hf.set fun m y hy same => absurd same (new m y hy)
  · rw [h]
    exact hf

/-! ## The attention cause and the flag -/

theorem keyHeld_iff (f : FaultRecorder) (r : FaultRecord) : keyHeld f r.reason r.port r.window ↔
    ∃ (n : Fin 8) (x : FaultRecord), f.slots[n] = some x ∧ sameKey x r := by
  simp [keyHeld, Option.any_eq_true, and_assoc]

/-- FAULT is set but for a repeat (R151). -/
theorem record_snd_eq_true_iff (f : FaultRecorder) (r : FaultRecord) :
    (f.record r).2 = true ↔ ¬ keyHeld f r.reason r.port r.window := by
  rw [keyHeld_iff]
  obtain ⟨n, x, hx, same, h⟩ | ⟨new, ⟨n, h⟩ | h⟩ := record_cases f r
  · rw [h]
    exact ⟨fun e => absurd e Bool.false_ne_true, fun unheld => absurd ⟨n, x, hx, same⟩ unheld⟩
  · simpa only [h, true_iff, not_exists, not_and] using new
  · simpa only [h, true_iff, not_exists, not_and] using new

theorem group_eq (reason : Reason) : reason.group = groupMask reason := by
  cases reason <;> rfl

/-- The recorder takes the record, and FAULT is raised but for a repeat (R151). -/
theorem recordFault_eq (r : FaultRecord) (s : State) : recordFault r s = { s with
    faults := (s.faults.record r).1
    attn := { s.attn with pending := s.attn.pending |||
      (if keyHeld s.faults r.reason r.port r.window then 0 else 2) } } := by
  by_cases held : keyHeld s.faults r.reason r.port r.window
  · have quiet : ¬ (s.faults.record r).2 = true := fun h => (record_snd_eq_true_iff s.faults r).1 h held
    simp [recordFault, quiet, held]
  · have raised : (s.faults.record r).2 = true := (record_snd_eq_true_iff s.faults r).2 held
    simp [recordFault, raised, held, State.raise, causeFault]

/-- An ACTIVE port with its arm on is STOPPED, and STOPPED is raised (R157). -/
theorem stopOnFault_setPort (p : Port) (x : Piu) (s : State) : stopOnFault p (s.setPort p x) =
    { s with attn := { s.attn with pending := s.attn.pending |||
      (if x.arm = true ∧ x.state = PortState.active then 16 else 0) } }.setPort p
      { x with
        state := if x.arm = true ∧ x.state = PortState.active then .stopped else x.state
        arm := if x.arm = true ∧ x.state = PortState.active then false else x.arm } := by
  by_cases stops : x.arm = true ∧ x.state = PortState.active
  · have test : (x.arm && x.state == .active) = true := by simp [stops]
    simp only [stopOnFault, State.port_setPort_self, test, if_pos stops, if_true, State.setPort_setPort]
    rfl
  · have test : ¬ (x.arm && x.state == .active) = true := by simpa using stops
    simp [stopOnFault, test, stops]

/-- Settles O28: the recording part, and then the flag and stop-on-fault of the port. -/
theorem aFaultEventRecordsFlagsAndStops : Obligations.AFaultEventRecordsFlagsAndStops := by
  intro p reason kind a window s
  simp only [faultEvent, recordFault_eq, stopOnFault_setPort, ← group_eq]
  rfl

/-- Settles O29: FAULT by O28, the keys and the three cases by what a record does to the recorder. -/
theorem theFaultRecorderTakesTheFirstCase : Obligations.TheFaultRecorderTakesTheFirstCase := by
  refine ⟨fun p reason kind a window s => ?_, fun f r hf => KeysApart.record hf r, fun f r =>
    ⟨fun n x hx same first => record_of_held hx (slotOfKey_eq_some hx same first), fun new => ?_⟩⟩
  · rw [aFaultEventRecordsFlagsAndStops]
    have stopped_bit : (if (s.port p).arm = true ∧ (s.port p).state = PortState.active then 16#5 else 0#5)[1] =
        false := by split <;> simp
    by_cases held : keyHeld s.faults reason p window <;> simp [held, stopped_bit]
  · have fresh := (slotOfKey_eq_none_iff f r).2 new
    exact ⟨fun n empty first => record_of_empty fresh (emptySlot_eq_some empty first),
      fun full => record_of_full fresh (emptySlot_eq_none full)⟩

end Sys2Proof.Faults
end

section
/-! PROOFS. The updates of exact frames (spec/10 R167 to R171; spec/11 section 11.4): what each writable register takes
from the incoming content. -/

namespace Sys2Proof.Registers
open Sys2Proof.Machine Sys2Proof.Safety

/-! ## The end of an exact frame -/

/-- An exact frame of a register applies the register's update; `row` is what the frame's row of the table does
(R167, R169). -/
theorem exec_of_exact {c : Instr} {s : State} {sel : BitVec 8} {length : Nat} {r : Register}
    {update : Payload → State → State} (h : exactFrame s sel length)
    (row : exec c s = .next (frameUpdate (exactEnd r s.mgmt.incoming) update s))
    (selected : registerOf sel = some r) (exact : r.length = length) :
    exec c s = .next (update s.mgmt.incoming (frameDone s)) :=
  row.trans (congrArg _ (frameUpdate_of_eq (frameEnd_exact h selected exact)))

/-! ## Attention -/

/-- A cause is both pending and enabled (R159). -/
theorem attnOutput_iff (s : State) : s.attnOutput = true ↔
    ∃ n : Fin 5, s.attn.pending.getLsbD n.val = true ∧ s.attn.enables.getLsbD n.val = true := by
  have bits : s.attn.pending &&& s.attn.enables ≠ 0 ↔
      ∃ n : Fin 5, (s.attn.pending &&& s.attn.enables).getLsbD n.val = true := by
    refine ⟨fun h => ?_, fun ⟨n, hn⟩ h => by simp [h] at hn⟩
    refine Classical.byContradiction fun none => h (BitVec.eq_of_getLsbD_eq fun n hn => ?_)
    rw [Bool.eq_false_iff.2 (not_exists.1 none ⟨n, hn⟩)]
    exact BitVec.getLsbD_zero.symm
  simpa only [State.attnOutput, bne_iff_ne, BitVec.getLsbD_and, Bool.and_eq_true] using bits

/-- The pending flags that an ATTN_ACK leaves: REQUEST is cleared only with an empty queue (R161, R105). -/
theorem unacknowledged_eq (queue : List Request) (causes pending : BitVec 5) :
    pending &&& ~~~acknowledged queue.isEmpty causes =
      if queue = [] then pending &&& ~~~causes else pending &&& ~~~(causes &&& ~~~1) := by
  cases queue <;> rfl

/-! ## Fields of the incoming content -/

/-- A field of a field is a field of the whole. -/
theorem extractLsb'_extractLsb' {n : Nat} (x : BitVec n) {lo width start len : Nat} (within : start + len ≤ width) :
    (x.extractLsb' lo width).extractLsb' start len = x.extractLsb' (lo + start) len := by
  refine BitVec.eq_of_getLsbD_eq fun i hi => ?_
  have inside : start + i < width := by omega
  simp [hi, inside, Nat.add_assoc]

/-! ## Lease Clock -/

/-- The four cases of R70: the period divisor is kept where the clock runs on, and a change of the run flag returns
the prescaler count to 0. -/
theorem clock_update_eq (c : LeaseClock) (run : Bool) (share : BitVec 4) (divisor : Nat) :
    c.update run share divisor = { c with
      divisor := divisor
      run := run
      share := share
      periodDivisor := if c.run = true ∧ run = true then c.periodDivisor else divisor
      prescaler := if c.run = run then c.prescaler else 0 } := by
  cases hc : c.run <;> cases run <;> simp [LeaseClock.update, hc]

/-- The fields of the CLOCK payload's first word (spec/11 section 11.4.2). -/
theorem applyClock_eq (x : Payload) (s : State) : applyClock x s = { s with
    clock := s.clock.update (x.getLsbD 63) (x.extractLsb' 59 4) (divisorOfCode (x.extractLsb' 32 16)) } := by
  have run : (payloadWord 2 0 x).getLsbD 31 = x.getLsbD 63 := by simp [payloadWord]
  have share : (payloadWord 2 0 x).extractLsb' 27 4 = x.extractLsb' 59 4 :=
    extractLsb'_extractLsb' x (by decide)
  have divisor : (payloadWord 2 0 x).extractLsb' 0 16 = x.extractLsb' 32 16 :=
    extractLsb'_extractLsb' x (by decide)
  simp only [applyClock, run, share, divisor]

/-! ## Fixed map and arm -/

/-- The entry of port `p` in a granule byte (spec/11 section 11.4.3). -/
theorem get_mapEntriesOf (b : Byte) (p : Port) :
    (mapEntriesOf b).get p = mapEntryOfCode (b.extractLsb' (2 * portCode p) 2) := by
  cases p <;> rfl

/-- The entry of a granule and a port in the fixed map of a payload (spec/11 section 11.4.3). -/
theorem entries_fixedMapOf (x : Payload) (g : Fin 16) (p : Port) : (fixedMapOf x).entries[g].get p =
    mapEntryOfCode (x.extractLsb' (8 * (15 - g.val) + 2 * portCode p) 2) := by
  have granule : (fixedMapOf x).entries[g] = mapEntriesOf (x.extractLsb' (8 * (15 - g.val)) 8) := by
    simp [fixedMapOf]
  have inside : 2 * portCode p + 2 ≤ 8 := by cases p <;> decide
  rw [granule, get_mapEntriesOf, extractLsb'_extractLsb' x inside]

/-- The PORT selectors (spec/11 section 11.3). -/
theorem registerOf_port (p : Port) : registerOf (BitVec.ofNat 8 (0x10 + portCode p)) = some (.port p) := by
  cases p <;> decide

/-- The row takes the port from the selector of the open frame. -/
theorem exec_portArmUpdate_of_end {s : State} {p : Port} (h : frameEnd s.mgmt = .portArm p) :
    exec .portArmUpdate s = .next (frameUpdate (.portArm p) (applyArm p) s) := by
  change execPortArmUpdate s = _
  simp only [execPortArmUpdate, h]

/-- Settles O43, register by register: the exact frame applies its update, and the update is the one stated. -/
theorem registerUpdates : Obligations.RegisterUpdates := by
  refine ⟨fun s => ⟨fun h => ?_, fun h => ?_, attnOutput_iff s⟩, fun s d run h hd hrun => ?_,
    fun s => ⟨fun h => ?_, fun h => ?_, fun p h => ?_⟩⟩
  · exact exec_of_exact (r := .attnEnable) (update := applyAttnEnable) h rfl (by decide) rfl
  · rw [exec_of_exact (r := .attnAck) (update := applyAttnAck) h rfl (by decide) rfl, applyAttnAck,
      unacknowledged_eq]
    rfl
  · rw [exec_of_exact (r := .clock) (update := applyClock) h rfl (by decide) rfl, applyClock_eq, clock_update_eq,
      hd, hrun]
    rfl
  · exact exec_of_exact (r := .scrub) (update := applyPattern) h rfl (by decide) rfl
  · exact ⟨fixedMapOf s.mgmt.incoming,
      exec_of_exact (r := .fixedMap) (update := applyFixedMap) h rfl (by decide) rfl, rfl,
      fun g p => entries_fixedMapOf s.mgmt.incoming g p⟩
  · have stands := frameEnd_exact h (registerOf_port p) rfl
    exact exec_of_exact (r := .port p) (update := applyArm p) h (exec_portArmUpdate_of_end stands)
      (registerOf_port p) rfl

end Sys2Proof.Registers
end

section
/-! PROOFS. The queue of waiting commands: no part of an event reads or changes it, so every command answers a next
state with the queue as it was (spec/95; logs 2, 16 and 21). -/

namespace Sys2Proof.Queue
open Sys2Proof.Machine Sys2Proof.Safety

/-! ## Putting parts together -/

theorem queue_ite {c : Prop} [Decidable c] {s t u : State} (h : t.pending = s.pending) (k : u.pending = s.pending) :
    (if c then t else u).pending = s.pending := by
  split
  · exact h
  · exact k

/-- The grant decision that ends an event leaves the queue (log 22). -/
theorem queue_granted {s t : State} (h : t.pending = s.pending) : (grantDecision t).pending = s.pending :=
  (lifeKept_grantDecision t).pending.trans h

/-- A list of parts, each of which leaves the queue. -/
theorem queue_foldl {α : Type} {f : State → α → State} (h : ∀ s x, (f s x).pending = s.pending) (l : List α)
    (s : State) : (l.foldl f s).pending = s.pending := by
  induction l generalizing s with
  | nil => rfl
  | cons x l ih => exact (ih _).trans (h s x)

/-! ## Acceptance -/

theorem queue_refuseControl (p : Port) (acc : Access) (reason : Reason) (s : State) :
    (refuseControl p acc reason s).pending = s.pending :=
  ((lifeKept_enterPending p _ _).before (lifeKept_faultEvent p reason .control acc.address none s)).pending

theorem queue_serveControl (p : Port) (acc : Access) (s : State) : (serveControl p acc s).pending = s.pending := by
  have read : (controlRead p acc s).2.pending = s.pending := by
    unfold controlRead
    split
    · unfold serveReply
      split <;> rfl
    · split <;> rfl
  exact (lifeKept_enterPending p _ _).pending.trans read

theorem queue_acceptControl (p : Port) (acc : Access) (s : State) : (acceptControl p acc s).pending = s.pending := by
  unfold acceptControl
  refine queue_ite (queue_refuseControl p acc _ s) (queue_ite (queue_refuseControl p acc _ s) ?_)
  split
  · exact queue_serveControl p acc s
  · exact (lifeKept_enterPending p _ s).pending

/-! ## Control writes -/

/-- A request that needs a ticket arrives, or is refused NO_TICKET (R85, R91). -/
theorem queue_ticketed {c : Prop} [Decidable c] (r : Request) (window : Option WinIdx) (s : State) :
    (if c then ownerRefused s .noTicket window else ownerOk (requestArrival r s)).1.pending = s.pending := by
  have arrival : (requestArrival r s).pending = s.pending := queue_ite rfl (queue_ite rfl rfl)
  split
  · rfl
  · exact arrival

theorem queue_renewByPort (p : Port) (i : WinIdx) (tag : Tag) (s : State) :
    (renewByPort p i tag s).1.pending = s.pending := by
  simp only [renewByPort]
  split
  · rfl
  · split
    case h_6 | h_7 =>
      split
      · exact queue_ticketed _ _ s
      · exact (lifeKept_renewWindow i _ s).pending
    all_goals rfl

theorem queue_releaseByPort (p : Port) (i : WinIdx) (s : State) : (releaseByPort p i s).1.pending = s.pending := by
  have hold : (releaseHold p i s).pending = s.pending := queue_ite (lifeKept_enterDraining i s).pending rfl
  simp only [releaseByPort]
  split
  · rfl
  · split
    · rfl
    · exact hold

theorem queue_pushOver (p : Port) (i : WinIdx) (c : Rights) (s : State) :
    (pushOver p i c s).1.pending = s.pending := by
  unfold pushOver
  split
  · rfl
  · split
    · rfl
    · split <;> rfl

theorem queue_carryPush (p : Port) (words : List Word) (s : State) : (carryPush p words s).1.pending = s.pending := by
  simp only [carryPush]
  split
  · rfl
  · split
    · rfl
    · split
      · rfl
      · exact queue_pushOver p _ _ s

theorem queue_carryPop (p : Port) (words : List Word) (s : State) : (carryPop p words s).1.pending = s.pending := by
  unfold carryPop
  split
  · rfl
  · exact queue_ite rfl rfl

/-- No owning block of a control write touches the queue of commands (R12). -/
theorem queue_ownerOf (n : Nat) (p : Port) (words : List Word) (s : State) :
    (ownerOf n p words s).1.pending = s.pending := by
  unfold ownerOf
  split
  · exact queue_ticketed _ _ s
  · simp only [carryRenew]
    split
    · rfl
    · exact queue_renewByPort p _ _ s
  · simp only [carryWithdraw]
    split <;> rfl
  · simp only [carryRelease]
    split
    · rfl
    · exact queue_releaseByPort p _ s
  · exact queue_carryPush p words s
  · exact queue_carryPop p words s
  · rfl
  · rfl

theorem queue_carryRouted (n : Nat) (p : Port) (place : Nat) (e : Entry) (w : Word) (s : State) :
    (carryRouted (ownerOf n) p place e w s).pending = s.pending := by
  refine Eq.trans ?_ (queue_ownerOf n p (e.kept ++ [w]) s)
  simp only [carryRouted, settleRouted]
  split
  · rfl
  · exact (lifeKept_faultEvent _ _ _ _ _ _).pending

theorem queue_finishRouted (n : Nat) (p : Port) (place : Nat) (e : Entry) (w : Word) (s : State) :
    (finishRouted (ownerOf n) p place e w s).pending = s.pending :=
  (lifeKept_depart p _).pending.trans (queue_carryRouted n p place e w s)

/-- The row of the control write at aperture word `n`. -/
theorem queue_controlWrite (n : Nat) (p : Port) (w : Word) (s : State) :
    (controlWrite (ownerOf n) n p w s).pending = s.pending := by
  unfold controlWrite
  split
  · exact queue_granted (queue_finishRouted n p _ _ w s)
  · rfl

theorem queue_beatToEntry (p : Port) (w : Word) (place : Nat) (e : Entry) (s : State) :
    (beatToEntry p w place e s).pending = s.pending := by
  refine queue_ite rfl ?_
  split
  · exact queue_finishRouted _ p place e w s
  all_goals rfl

theorem queue_dataBeat (p : Port) (w : Word) (s : State) : (dataBeat p w s).pending = s.pending := by
  refine queue_ite rfl ?_
  split
  · exact queue_beatToEntry p w _ _ s
  · rfl

/-! ## Resets and completions -/

theorem queue_meetReset (p : Port) (s : State) (meeting : ResetMeeting) :
    (meetReset p s meeting).pending = s.pending := by
  unfold meetReset
  split
  · split
    · exact queue_ite (lifeKept_deadlineSettled p _ _ s).pending rfl
    · rfl
  · split
    · exact queue_carryRouted _ p _ _ _ s
    · rfl

theorem queue_portReset (p : Port) (order : DiscardOrder) (s : State) : (portReset p order s).pending = s.pending :=
  (lifeKept_emptyStack p _).pending.trans (lifeKept_releaseEntries _ (s.setPort p (s.port p).resetLine)).pending

theorem queue_softResetBegin (s : State) : (softResetBegin s).pending = s.pending := by
  have aborted : (abortAll { s with softReset := true }).pending = s.pending := (lifeKept_abortAll _).pending
  refine queue_ite rfl ?_
  simp only
  split
  · exact aborted
  · split
    · exact aborted
    · rfl

theorem queue_afterBurst (s : State) : (afterBurst s).pending = s.pending :=
  queue_ite (lifeKept_abortAll { s with seq := { s.seq with burst := none } }).pending (queue_granted rfl)

theorem queue_burstWrites (b : Burst) (s : State) : (burstWrites b s).pending = s.pending := by
  unfold burstWrites
  split <;> rfl

theorem queue_portCompletion (p : Port) (b : Burst) (s : State) : (portCompletion p b s).pending = s.pending :=
  calc (portCompletion p b s).pending
    _ = (settleBurst p (readData b s) (releaseBound b.bound (burstWrites b s))).pending := queue_afterBurst _
    _ = (releaseBound b.bound (burstWrites b s)).pending := (lifeKept_settleBurst p _ _).pending
    _ = (burstWrites b s).pending := (lifeKept_releaseBound b.bound _).pending
    _ = s.pending := queue_burstWrites b s

theorem queue_scrubCompletion (b : Burst) (s : State) : (scrubCompletion b s).pending = s.pending :=
  calc (scrubCompletion b s).pending
    _ = (countGroup (burstWrites b s)).pending := queue_afterBurst _
    _ = (burstWrites b s).pending := (lifeKept_countGroup _).pending
    _ = s.pending := queue_burstWrites b s

/-! ## Frames and actions -/

/-- The end of a frame, by its update. -/
theorem queue_frameUpdate {kind : FrameEnd} {update : Payload → State → State}
    (h : ∀ x t, (update x t).pending = t.pending) (s : State) : (frameUpdate kind update s).pending = s.pending :=
  queue_ite (h _ (closeFrame false s)) rfl

/-- The end of an ACTION frame, by its action. -/
theorem queue_actionFrame {code : BitVec 5} {act : ActionRecord → State → ActionOut}
    (h : ∀ a t, (act a t).1.pending = t.pending) (s : State) : (actionFrame code act s).pending = s.pending :=
  queue_ite (h (actionRecordOf s.mgmt.incoming) (closeFrame false s)) rfl

theorem queue_onWindow {a : ActionRecord} {act : WinIdx → State → ActionOut} {s : State}
    (h : ∀ i, (act i s).1.pending = s.pending) : (onWindow a act s).1.pending = s.pending := by
  unfold onWindow
  split
  · rfl
  · exact h _

theorem queue_onHead {a : ActionRecord} {act : Request → State → ActionOut} {s : State}
    (h : ∀ r, (act r s).1.pending = s.pending) : (onHead a act s).1.pending = s.pending := by
  unfold onHead
  split
  · rfl
  · split
    · exact h _
    · rfl

/-- An action taken on a condition. -/
theorem queue_actionIf {c : Prop} [Decidable c] {s t : State} {code : ResultCode} {done window : Option WinIdx}
    (h : t.pending = s.pending) :
    (if c then actionDone t done else actionFailed s code window).1.pending = s.pending := by
  split
  · exact h
  · rfl

theorem queue_createWindow (n : NewWindow) (s : State) : (createWindow n s).1.pending = s.pending := by
  unfold createWindow
  split
  · rfl
  · split
    · rfl
    · exact queue_ite (lifeKept_enterHeld _ (s.setWin _ _)).pending (lifeKept_enterPhase _ _ _ (s.setWin _ _)).pending

theorem queue_grantHead (a : ActionRecord) (r : Request) (s : State) : (grantHead a r s).1.pending = s.pending := by
  unfold grantHead
  split
  · rename_i f _
    have created := queue_createWindow (grantOperands r.port r.tag f a) s
    unfold grantNew
    split
    · rename_i done
      rw [done] at created
      exact created
    · rfl
  · exact queue_actionIf (lifeKept_renewWindow _ a.budget s).pending

theorem queue_amendWindow (a : ActionRecord) (i : WinIdx) (s : State) :
    (amendWindow a i s).1.pending = s.pending := by
  have removed (old new : PortSet) (t : State) (p : Port) : (orphanRemoved i old new t p).pending = t.pending :=
    queue_ite rfl rfl
  unfold amendWindow
  split
  · rfl
  · split
    · rfl
    · split
      · rfl
      · exact queue_foldl (removed _ _) allPorts s

theorem queue_ackFault (slot : BitVec 6) (s : State) : (ackFault slot s).1.pending = s.pending := by
  unfold ackFault
  split
  · split <;> rfl
  · rfl

theorem queue_selectorBit (b : Bool) (s : State) : (selectorBit b s).pending = s.pending :=
  queue_ite rfl rfl

/-! ## Every command -/

/-- Every command answers a next state with the queue as it was. -/
theorem exec_queue (c : Instr) (s : State) : ∃ t, exec c s = .next t ∧ t.pending = s.pending := by
  cases c with
  | acceptDataAccess p acc => exact ⟨_, rfl, queue_ite (queue_granted (lifeKept_acceptData p acc s).pending) rfl⟩
  | acceptControlAccess p acc => exact ⟨_, rfl, queue_ite (queue_acceptControl p acc s) rfl⟩
  | replyRead p => exact ⟨_, rfl, queue_ite (queue_serveControl p replyAccess s) rfl⟩
  | writeDataBeat p w => exact ⟨_, rfl, queue_ite (queue_granted (queue_dataBeat p w s)) rfl⟩
  | newRequest p w => exact ⟨_, rfl, queue_controlWrite 0 p w s⟩
  | portRenew p w => exact ⟨_, rfl, queue_controlWrite 2 p w s⟩
  | withdraw p w => exact ⟨_, rfl, queue_controlWrite 3 p w s⟩
  | release p w => exact ⟨_, rfl, queue_controlWrite 4 p w s⟩
  | scopePush p w => exact ⟨_, rfl, queue_controlWrite 5 p w s⟩
  | scopePop p w => exact ⟨_, rfl, queue_controlWrite 6 p w s⟩
  | portClearFlags p w => exact ⟨_, rfl, queue_controlWrite 7 p w s⟩
  | dataDeadline p place => exact ⟨_, rfl, queue_ite (queue_granted (lifeKept_deadlineIf _ p place s).pending) rfl⟩
  | lclkPeriod order => exact ⟨_, rfl, queue_ite (lifeKept_lclkPeriod order s).pending rfl⟩
  | leaseTick => exact ⟨_, rfl, queue_ite (queue_granted (lifeKept_leaseTick s).pending) rfl⟩
  | onsetExpiry i | holdExpiry i | taperExpiry i => exact ⟨_, rfl, (lifeKept_expiryEvent _ i s).pending⟩
  | burstGrant => exact ⟨_, rfl, queue_granted rfl⟩
  | portBurstComplete =>
    refine ⟨_, rfl, ?_⟩
    split
    · rfl
    · split
      · exact queue_portCompletion _ _ s
      · rfl
  | scrubBurstComplete =>
    refine ⟨_, rfl, ?_⟩
    split
    · rfl
    · split
      · exact queue_scrubCompletion _ s
      · rfl
  | drainEnd i => exact ⟨_, rfl, queue_ite (queue_granted (lifeKept_endDrain i s).pending) rfl⟩
  | fillComplete =>
    refine ⟨_, rfl, ?_⟩
    split
    · rfl
    · exact queue_ite (queue_scrubCompletion _ s) rfl
  | portResetAssert p order =>
    have met := queue_foldl (queue_meetReset p) order.first s
    exact ⟨_, rfl, queue_ite rfl (queue_granted ((queue_portReset p _ _).trans met))⟩
  | portResetRelease p | porstAssert | powerOnReset => exact ⟨_, rfl, queue_ite rfl rfl⟩
  | softResetEnd =>
    refine ⟨_, rfl, queue_ite ?_ rfl⟩
    split
    · exact queue_afterBurst s
    · split
      · exact queue_portCompletion _ _ s
      · exact queue_scrubCompletion _ s
  | malformedFrame =>
    refine ⟨_, rfl, ?_⟩
    split <;> rfl
  | readOnlyFrame | nullAction | attnEnable | attnAck | clock | scrubUpdate | fixedMap =>
    exact ⟨_, rfl, queue_frameUpdate (fun _ _ => by rfl) s⟩
  | portArmUpdate =>
    refine ⟨_, rfl, ?_⟩
    split
    · exact queue_frameUpdate (fun _ _ => by rfl) s
    all_goals rfl
  | badAction =>
    refine ⟨_, rfl, ?_⟩
    split
    · exact queue_ite rfl rfl
    all_goals rfl
  | create => exact ⟨_, rfl, queue_actionFrame (fun _ t => queue_createWindow _ t) s⟩
  | grantHead => exact ⟨_, rfl, queue_actionFrame (fun a t => queue_onHead fun r => queue_grantHead a r t) s⟩
  | refuseHead => exact ⟨_, rfl, queue_actionFrame (fun _ _ => queue_onHead fun _ => by rfl) s⟩
  | amend => exact ⟨_, rfl, queue_actionFrame (fun a t => queue_onWindow fun i => queue_amendWindow a i t) s⟩
  | renew =>
    exact ⟨_, rfl, queue_actionFrame
      (fun _ t => queue_onWindow fun i => queue_actionIf (lifeKept_renewWindow i _ t).pending) s⟩
  | activate =>
    exact ⟨_, rfl, queue_actionFrame
      (fun _ t => queue_onWindow fun i => queue_actionIf (lifeKept_enterHeld i t).pending) s⟩
  | revoke =>
    exact ⟨_, rfl, queue_actionFrame
      (fun _ t => queue_onWindow fun i => queue_actionIf (queue_granted (lifeKept_enterDraining i t).pending)) s⟩
  | unwind => exact ⟨_, rfl, queue_actionFrame (fun a t => (lifeKept_emptyStack a.port t).pending) s⟩
  | resumePort | scrubHold => exact ⟨_, rfl, queue_actionFrame (fun _ _ => queue_actionIf (by rfl)) s⟩
  | clearFlags | clearOverflow => exact ⟨_, rfl, queue_actionFrame (fun _ _ => by rfl) s⟩
  | ackFault => exact ⟨_, rfl, queue_actionFrame (fun a t => queue_ackFault a.index t) s⟩
  | scrubResume =>
    exact ⟨_, rfl, queue_actionFrame (fun _ _ => queue_actionIf (queue_granted (by rfl))) s⟩
  | softReset =>
    exact ⟨_, rfl, queue_frameUpdate (fun _ t => queue_softResetBegin (setResult .done none t.clock.time t)) s⟩
  | frameOpen => exact ⟨_, rfl, queue_ite rfl (queue_ite rfl rfl)⟩
  | managementClockPeriod dataIn =>
    refine ⟨_, rfl, queue_ite rfl ?_⟩
    split
    · rfl
    · exact queue_selectorBit dataIn s
    · rfl

/-- Settles O2: each command by what it leaves of the queue, and the idle step by the definition of the step. -/
theorem everyCommandAnswers : Obligations.EveryCommandAnswers := by
  refine ⟨exec_queue, fun s idle => ?_⟩
  simp only [step, idle]

end Sys2Proof.Queue
end

section
/-! PROOFS. Management frames (spec/10 R164 to R171): how a frame opens and shifts, and how it ends without an
update. -/

namespace Sys2Proof.Frames
open Sys2Proof.Machine Sys2Proof.Safety

/-! ## Opening and shifting -/

theorem exec_frameOpen (s : State) : exec .frameOpen s = .next (if s.mgmt.select then s
    else if s.mgmt.frame == .closed && !s.porst then { s with mgmt := s.mgmt.opened }
    else { s with mgmt := { s.mgmt with select := true } }) := rfl

theorem exec_managementClockPeriod (bit : Bool) (s : State) : exec (.managementClockPeriod bit) s =
    execManagementClockPeriod bit s := rfl

/-- A period is ignored during PORST, while select is released and while no frame is open (R164, R177). -/
theorem exec_managementClockPeriod_ignored (bit : Bool) {s : State}
    (h : s.porst = true ∨ s.mgmt.select = false ∨ s.mgmt.frame = .closed) :
    exec (.managementClockPeriod bit) s = .next s := by
  rw [exec_managementClockPeriod, execManagementClockPeriod]
  rcases h with porst | select | closed
  · simp [porst]
  · simp [select]
  · simp [closed]

section Shifting
variable {s : State} (bit : Bool) (porst : s.porst = false) (select : s.mgmt.select = true)
include porst select

theorem exec_managementClockPeriod_selector (frame : s.mgmt.frame = .selector) :
    exec (.managementClockPeriod bit) s = .next (selectorBit bit s) := by
  simp [exec_managementClockPeriod, execManagementClockPeriod, porst, select, frame]

theorem exec_managementClockPeriod_payload (frame : s.mgmt.frame = .payload) :
    exec (.managementClockPeriod bit) s = .next { s with mgmt := s.mgmt.payloadBit bit } := by
  simp [exec_managementClockPeriod, execManagementClockPeriod, porst, select, frame]

end Shifting

/-- A selector bit before the eighth (R164). -/
theorem selectorBit_of_lt (bit : Bool) {s : State} (h : s.mgmt.bitCount < 7) : selectorBit bit s =
    { s with mgmt := { s.mgmt with
      selector := (s.mgmt.selector <<< 1) ||| BitVec.ofNat 8 bit.toNat, bitCount := s.mgmt.bitCount + 1 } } := by
  rw [selectorBit, if_pos (by omega)]

/-- The eighth selector bit makes the capture (R165). -/
theorem selectorBit_of_last (bit : Bool) {s : State} (h : s.mgmt.bitCount = 7) : selectorBit bit s =
    { s with mgmt := { s.mgmt with
      selector := (s.mgmt.selector <<< 1) ||| BitVec.ofNat 8 bit.toNat
      captured := captureOf ((s.mgmt.selector <<< 1) ||| BitVec.ofNat 8 bit.toNat) s
      incoming := 0, bitCount := 0, frame := .payload } } := by
  rw [selectorBit, if_neg (by omega)]

/-- A bit within the payload length (R166). -/
theorem payloadBit_of_lt (bit : Bool) {m : Mgmt} (h : m.bitCount < payloadLength m.selector) :
    m.payloadBit bit = { m with
      dataOut := m.captured.getLsbD (payloadLength m.selector - 1 - m.bitCount)
      incoming := (m.incoming <<< 1) ||| BitVec.ofNat 160 bit.toNat
      bitCount := m.bitCount + 1 } := by
  rw [Mgmt.payloadBit, if_pos h]

/-- Of the bits beyond the payload length one is counted (R166). -/
theorem payloadBit_of_beyond (bit : Bool) {m : Mgmt}
    (h : m.bitCount = payloadLength m.selector ∨ m.bitCount = payloadLength m.selector + 1) :
    m.payloadBit bit = { m with dataOut := false, bitCount := payloadLength m.selector + 1 } := by
  have counted : min (m.bitCount + 1) (payloadLength m.selector + 1) = payloadLength m.selector + 1 := by omega
  rw [Mgmt.payloadBit, if_neg (by omega), counted]

/-- Settles O39: the opening by select, frame and PORST, and a period by the frame's state and bit count. -/
theorem framesOpenAndShift : Obligations.FramesOpenAndShift := by
  refine fun s => ⟨fun select closed porst => ?_, fun select porst => ?_, fun select => ?_, fun bit =>
    ⟨exec_managementClockPeriod_ignored bit, fun porst select frame h => ?_, fun porst select frame h => ?_,
      fun len porst select frame hlen => ⟨fun h => ?_, fun h => ?_⟩⟩⟩
  · simp [exec_frameOpen, select, closed, porst, Mgmt.opened]
  · simp [exec_frameOpen, select, porst]
  · simp [exec_frameOpen, select]
  · rw [exec_managementClockPeriod_selector bit porst select frame, selectorBit_of_lt bit h]
  · rw [exec_managementClockPeriod_selector bit porst select frame, selectorBit_of_last bit h]
  · subst hlen
    rw [exec_managementClockPeriod_payload bit porst select frame, payloadBit_of_lt bit h]
  · subst hlen
    rw [exec_managementClockPeriod_payload bit porst select frame, payloadBit_of_beyond bit h]

/-! ## Malformed frames (R167) -/

theorem frameEnd_of_closed {m : Mgmt} (h : m.frame = .closed) : frameEnd m = .noFrame := by
  simp only [frameEnd, h]

theorem frameEnd_of_selector {m : Mgmt} (h : m.frame = .selector) : frameEnd m = .malformed := by
  simp only [frameEnd, h]

/-- A frame of an unassigned selector, or of another length than its payload, is malformed. -/
theorem frameEnd_of_inexact {m : Mgmt} (frame : m.frame = .payload)
    (h : registerOf m.selector = none ∨ m.bitCount ≠ payloadLength m.selector) : frameEnd m = .malformed := by
  cases assigned : registerOf m.selector with
  | none => simp only [frameEnd, frame, assigned]
  | some r =>
    have other : m.bitCount ≠ r.length := by simpa [assigned, payloadLength] using h
    simp only [frameEnd, frame, assigned, if_neg other]

theorem exec_malformedFrame_of_malformed {s : State} (h : frameEnd s.mgmt = .malformed) :
    exec .malformedFrame s = .next { s with mgmt := released s.mgmt true } := by
  change execMalformedFrame s = _
  simp only [execMalformedFrame, h]
  rfl

theorem exec_malformedFrame_of_noFrame {s : State} (h : frameEnd s.mgmt = .noFrame) :
    exec .malformedFrame s = .next { s with mgmt := { s.mgmt with select := false } } := by
  change execMalformedFrame s = _
  simp only [execMalformedFrame, h]

/-! ## Exact frames that update nothing -/

/-- An exact frame of a register that is only read (R167). -/
theorem exec_readOnlyFrame_of_exact {s : State} {sel : BitVec 8} {length : Nat} {r : Register}
    (h : exactFrame s sel length) (selected : registerOf sel = some r) (exact : r.length = length)
    (readOnly : exactEnd r s.mgmt.incoming = .readOnly) : exec .readOnlyFrame s = .next (frameDone s) :=
  Registers.exec_of_exact (update := fun _ t => t) h (by rw [readOnly]; rfl) selected exact

/-- The FAULT selectors (spec/11 section 11.3). -/
theorem registerOf_fault (n : Fin 8) : registerOf (BitVec.ofNat 8 (0x20 + n.val)) = some (.fault n) := by
  revert n; decide

/-- The WINDOW selectors (spec/11 section 11.3). -/
theorem registerOf_window (i : WinIdx) : registerOf (BitVec.ofNat 8 (0x40 + i.val)) = some (.window i) := by
  revert i; decide

/-- An action code of 16 to 31 (R171, R180). -/
theorem exec_badAction_of_stands {s : State} {code : BitVec 5} (reserved : 16 ≤ code.toNat)
    (h : actionStands s code) : exec .badAction s = .next (actionFails s .badAction none) := by
  change execBadAction s = _
  simp only [execBadAction, frameEnd_action h, if_pos reserved]
  rfl

/-- Settles O42, by the kind of frame that the release of select ends. -/
theorem frameEndsWithoutUpdate : Obligations.FrameEndsWithoutUpdate := by
  refine fun s => ⟨fun frame => exec_malformedFrame_of_malformed (frameEnd_of_selector frame),
    fun frame h => exec_malformedFrame_of_malformed (frameEnd_of_inexact frame h),
    fun frame => exec_malformedFrame_of_noFrame (frameEnd_of_closed frame), ?_,
    fun h => congrArg Host.Outcome.next (frameUpdate_of_eq (frameEnd_action h)),
    fun code reserved h => exec_badAction_of_stands reserved h⟩
  rintro (ident | status | head | ⟨n, fault⟩ | ⟨i, window⟩)
  · exact exec_readOnlyFrame_of_exact (r := .ident) ident (by decide) rfl rfl
  · exact exec_readOnlyFrame_of_exact (r := .status) status (by decide) rfl rfl
  · exact exec_readOnlyFrame_of_exact (r := .requestHead) head (by decide) rfl rfl
  · exact exec_readOnlyFrame_of_exact fault (registerOf_fault n) rfl rfl
  · exact exec_readOnlyFrame_of_exact window (registerOf_window i) rfl rfl

end Sys2Proof.Frames
end

section
/-! PROOFS. The reset kinds (spec/10 R174 to R178; spec/01 R14, R17, R18): the power-on values, and a soft reset from
its frame to the end of the burst it waits for. -/

namespace Sys2Proof.Resets
open Sys2Proof.Machine Sys2Proof.Safety Sys2Proof.Bursts

/-! ## Power-on reset -/

theorem port_resetBlocks (s : State) (p : Port) : (resetBlocks s).port p = (s.port p).afterReset := by
  cases p <;> rfl

/-- A port after a reset of the whole part: its state by its line (R14, R18). -/
theorem afterReset_eq (u : Piu) : u.afterReset = { Piu.powerOn with
    state := if u.line = true then .inReset else .active, line := u.line, sent := u.sent } := rfl

/-- The blocks take their reset values whatever becomes of the Management Port, the SRAM and PORST. -/
theorem blocksReset_of_resetBlocks {s t : State} (ports : ∀ p, t.port p = (resetBlocks s).port p)
    (rest : t = { resetBlocks s with
      piu := t.piu, mgmt := t.mgmt, sram := t.sram, powerOns := t.powerOns, porst := t.porst }) :
    blocksReset s t := by
  refine ⟨fun p => ?_, rest⟩
  rw [ports p, port_resetBlocks, afterReset_eq]

/-- Settles O4: the power-on values, at the assertion of PORST and again at its release. -/
theorem powerOnResetGivesResetValues : Obligations.PowerOnResetGivesResetValues := by
  have values (s : State) (n : Nat) (porst : Bool) :
      resetApartFromPins s { powerOnValues s with porst := porst, powerOns := n } := by
    have ports (p : Port) : State.port { powerOnValues s with porst := porst, powerOns := n } p =
        (resetBlocks s).port p := rfl
    refine ⟨blocksReset_of_resetBlocks ports rfl, fun p => ?_, rfl, rfl⟩
    rw [ports, port_resetBlocks]
    rfl
  refine fun s => ⟨fun released => ⟨{ powerOnValues s with porst := true, powerOns := s.powerOns + 1 }, ?_, rfl, rfl,
    values s (s.powerOns + 1) true⟩, fun asserted => ⟨{ powerOnValues s with porst := false }, ?_, rfl, rfl,
    values s s.powerOns false⟩⟩
  · change execPorstAssert s = _
    simp [execPorstAssert, released]
  · change execPowerOnReset s = _
    simp [execPowerOnReset, asserted]

/-! ## The end of a binding reads and changes windows and Scrub Engine alone -/

/-- The state with its ports, Management Port and soft reset replaced, which no binding reads. -/
def withOutside (piu : PerPort Piu) (mgmt : Mgmt) (softReset : Bool) (s : State) : State :=
  { s with piu := piu, mgmt := mgmt, softReset := softReset }

theorem drained_withOutside (piu : PerPort Piu) (mgmt : Mgmt) (softReset : Bool) (i : WinIdx) (s : State) :
    drained i (withOutside piu mgmt softReset s) = withOutside piu mgmt softReset (drained i s) := by
  unfold drained
  rw [apply_ite (withOutside piu mgmt softReset), apply_ite (withOutside piu mgmt softReset)]
  rfl

theorem unboundFrom_withOutside (piu : PerPort Piu) (mgmt : Mgmt) (softReset : Bool) (bound : Option WinIdx)
    (s : State) : unboundFrom bound (withOutside piu mgmt softReset s) =
      withOutside piu mgmt softReset (unboundFrom bound s) := by
  cases bound with
  | none => rfl
  | some i =>
    simp only [unboundFrom, unbound]
    rw [apply_ite (withOutside piu mgmt softReset), ← drained_withOutside]
    rfl

theorem unboundAll_withOutside (piu : PerPort Piu) (mgmt : Mgmt) (softReset : Bool) (es : List Entry) (s : State) :
    unboundAll es (withOutside piu mgmt softReset s) = withOutside piu mgmt softReset (unboundAll es s) := by
  induction es generalizing s with
  | nil => rfl
  | cons e es ih =>
    simp only [unboundAll, List.foldl_cons, unboundFrom_withOutside]
    exact ih _

theorem drained_eq (i : WinIdx) (s : State) : drained i s =
    { s with windows := (drained i s).windows, scrub := (drained i s).scrub } := by
  unfold drained
  split
  · rfl
  · split <;> rfl

theorem unboundFrom_eq (bound : Option WinIdx) (s : State) : unboundFrom bound s =
    { s with windows := (unboundFrom bound s).windows, scrub := (unboundFrom bound s).scrub } := by
  cases bound with
  | none => rfl
  | some i =>
    simp only [unboundFrom, unbound]
    split
    · exact (drained_eq i _).trans rfl
    · rfl

/-- The ends of bindings change windows and Scrub Engine alone (R37, R38). -/
theorem unboundAll_eq (es : List Entry) (s : State) : unboundAll es s =
    { s with windows := (unboundAll es s).windows, scrub := (unboundAll es s).scrub } := by
  induction es generalizing s with
  | nil => rfl
  | cons e es ih =>
    have first := unboundFrom_eq (boundWindow e) s
    simp only [unboundAll, List.foldl_cons] at ih ⊢
    rw [ih]
    generalize unboundFrom (boundWindow e) s = t at first ⊢
    rw [first]

/-! ## Every entry answered ABORTED (R17) -/

theorem abortedResponse_eq (acc : Access) : abortedResponse acc = aborted acc := by
  unfold abortedResponse aborted zeroData
  cases acc.kind <;> rfl

/-- The port after the answers to all its entries. -/
def answeredAborted (u : Piu) : Piu :=
  { u with pending := [], sent := u.sent ++ u.pending.map fun e => aborted e.access }

theorem releaseEntries_setPort (es : List Entry) (p : Port) (x : Piu) (s : State) :
    releaseEntries es (s.setPort p x) = (releaseEntries es s).setPort p x := by
  induction es generalizing s with
  | nil => rfl
  | cons e es ih =>
    simp only [releaseEntries, List.foldl_cons, releaseBound_setPort]
    exact ih _

theorem releaseEntries_port (es : List Entry) (s : State) (p : Port) :
    (releaseEntries es s).port p = s.port p := by
  have put := releaseEntries_setPort es p (s.port p) s
  rw [State.setPort_port] at put
  rw [put, State.port_setPort_self]

theorem releaseEntries_append (es fs : List Entry) (s : State) :
    releaseEntries (es ++ fs) s = releaseEntries fs (releaseEntries es s) := List.foldl_append

theorem abortPort_eq (s : State) (p : Port) :
    abortPort s p = (releaseEntries (s.port p).pending s).setPort p (answeredAborted (s.port p)) := by
  simp only [abortPort, releaseEntries_setPort, abortedResponse_eq]
  rfl

theorem port_abortPort_self (s : State) (p : Port) : (abortPort s p).port p = answeredAborted (s.port p) := by
  rw [abortPort_eq, State.port_setPort_self]

theorem port_abortPort_ne (s : State) {p q : Port} (h : q ≠ p) : (abortPort s p).port q = s.port q := by
  rw [abortPort_eq, State.port_setPort_ne _ _ h, releaseEntries_port]

theorem port_abortAll (s : State) (p : Port) : (abortAll s).port p = answeredAborted (s.port p) := by
  simp only [abortAll, allPorts, List.foldl_cons, List.foldl_nil]
  cases p <;> simp [port_abortPort_self, port_abortPort_ne]

/-- Beside the ports' answers, the bindings end port by port from A (log 9). -/
theorem abortAll_eq (s : State) : abortAll s =
    { releaseEntries (allPorts.flatMap fun p => (s.port p).pending) s with piu := (abortAll s).piu } := by
  simp only [abortAll, allPorts, List.foldl_cons, List.foldl_nil, List.flatMap_cons, List.flatMap_nil,
    releaseEntries_append, abortPort_eq, releaseEntries_setPort, releaseEntries_port, State.port_setPort_ne, ne_eq,
    reduceCtorEq, not_false_eq_true]
  rfl

/-! ## The end of a soft reset (R176) -/

theorem port_softResetFinish (u : State) (p : Port) : (softResetFinish u).port p = (u.port p).afterReset :=
  port_resetBlocks u p

/-- The end of a soft reset gives the reset values from every state that has the lines, PORST, the number of
power-ons and the queue as they were. -/
theorem softResetValues_softResetFinish {s u : State} (lines : ∀ p, (u.port p).line = (s.port p).line)
    (porst : u.porst = s.porst) (powerOns : u.powerOns = s.powerOns) (queue : u.pending = s.pending) :
    softResetValues s (softResetFinish u) := by
  refine ⟨⟨fun p => ?_, ?_⟩, porst, powerOns⟩
  · rw [port_softResetFinish, afterReset_eq, lines p]
  · rw [← queue]
    rfl

/-- The answers and then the end of the soft reset: each port's list of responses sent goes on with ABORTED for
every entry it still holds. -/
theorem sent_softResetFinish_abortAll (u : State) (p : Port) : ((softResetFinish (abortAll u)).port p).sent =
    (u.port p).sent ++ (u.port p).pending.map fun e => aborted e.access := by
  rw [port_softResetFinish, port_abortAll]
  rfl

/-! ## The frame of a soft reset (R174, R175) -/

theorem exec_softReset {s : State} (h : actionStands s 15) :
    exec .softReset s = .next (softResetBegin (withResult .done none s.clock.time (frameDone s))) :=
  congrArg Host.Outcome.next (frameUpdate_of_eq (frameEnd_action h))

theorem softResetBegin_of_inProgress {s : State} (h : s.softReset = true) : softResetBegin s = s := by
  rw [softResetBegin, if_pos h]

section Begin
variable {s : State} (fresh : s.softReset = false)
include fresh

theorem softResetBegin_of_idle (h : s.seq.burst = none) :
    softResetBegin s = softResetFinish (abortAll { s with softReset := true }) := by
  simp [softResetBegin, fresh, h]

theorem softResetBegin_of_port {b : Burst} {p : Port} (h : s.seq.burst = some b) (source : b.source = .port p) :
    softResetBegin s = { s with softReset := true } := by
  simp [softResetBegin, fresh, h, source]

theorem softResetBegin_of_scrub {b : Burst} (h : s.seq.burst = some b) (source : b.source = .scrub) :
    softResetBegin s = abortAll { s with softReset := true } := by
  simp [softResetBegin, fresh, h, source]

end Begin

/-- Under a scrub burst the answers leave windows and Scrub Engine with the bindings ended, and the rest as it
was. -/
theorem abortAll_withOutside {s : State} (engine : engineMatches s) (mgmt : Mgmt) (softReset : Bool) :
    abortAll (withOutside s.piu mgmt softReset s) = { s with
      piu := (abortAll (withOutside s.piu mgmt softReset s)).piu
      windows := (unboundAll (allPorts.flatMap fun p => (s.port p).pending) s).windows
      scrub := (unboundAll (allPorts.flatMap fun p => (s.port p).pending) s).scrub
      softReset := softReset
      mgmt := mgmt } := by
  have outside_engine : engineMatches (withOutside s.piu mgmt softReset s) := engine
  have ended : releaseEntries (allPorts.flatMap fun p => ((withOutside s.piu mgmt softReset s).port p).pending)
      (withOutside s.piu mgmt softReset s) = withOutside s.piu mgmt softReset
        (unboundAll (allPorts.flatMap fun p => (s.port p).pending) s) := by
    rw [releaseEntries_eq _ _ outside_engine]
    exact unboundAll_withOutside s.piu mgmt softReset _ s
  refine (abortAll_eq _).trans ?_
  rw [ended, unboundAll_eq]
  rfl

/-- Settles O6, by the burst that the soft reset finds: none, a port's, the Scrub Engine's, or one it already waits
for. -/
theorem softResetBegins : Obligations.SoftResetBegins := by
  refine ⟨fun s stands fresh idle => ?_, fun s b p stands fresh burst source => ?_,
    fun s u b stands fresh burst source engine hu => ?_, fun s stands inProgress => ?_⟩
  · have kept := lifeKept_abortAll { withResult .done none s.clock.time (frameDone s) with softReset := true }
    refine ⟨_, exec_softReset stands, ?_⟩
    rw [softResetBegin_of_idle (s := withResult .done none s.clock.time (frameDone s)) fresh idle]
    refine ⟨softResetValues_softResetFinish kept.lines kept.porst kept.powerOns kept.pending, ?_, kept.sram,
      sent_softResetFinish_abortAll _⟩
    exact congrArg (fun m : Mgmt => { m with malformed := false, lastResult := Result.powerOn }) kept.mgmt
  · rw [exec_softReset stands,
      softResetBegin_of_port (s := withResult .done none s.clock.time (frameDone s)) fresh burst source]
  · subst hu
    refine ⟨_, exec_softReset stands, ?_⟩
    rw [softResetBegin_of_scrub (s := withResult .done none s.clock.time (frameDone s)) fresh burst source]
    exact ⟨fun p => port_abortAll _ p, abortAll_withOutside engine
      { released s.mgmt false with lastResult := ⟨.done, none, s.clock.time⟩ } true⟩
  · rw [exec_softReset stands,
      softResetBegin_of_inProgress (s := withResult .done none s.clock.time (frameDone s)) inProgress]

/-! ## The burst that a soft reset waits for (R129, R174) -/

/-- The state in which a burst's completion starts to settle: the SRAM with what the burst wrote. -/
theorem burstWrites_eq (b : Burst) (s : State) : burstWrites b s = { s with
    sram := if b.kind = .write then writeBeats b.addrs b.lanes b.data s.sram else s.sram } := by
  unfold burstWrites
  cases b.kind <;> rfl

/-- A completion in a soft reset, by what its settling `v` leaves at the ports: the soft reset ends, and the
responses sent go on with ABORTED for every entry that stays. -/
theorem softReset_ends {s v : State} {b : Burst} (soft : s.softReset = true)
    (kept : LifeKept (burstWrites b s) v) (sent : ∀ p, (v.port p).sent ++
      ((v.port p).pending.map fun e => aborted e.access) = (s.port p).sent ++ lastResponses p b s) :
    softResetValues s (afterBurst v) ∧
      (afterBurst v).mgmt = { s.mgmt with malformed := false, lastResult := ⟨.done, none, 0⟩ } ∧
      (afterBurst v).sram = (if b.kind = .write then writeBeats b.addrs b.lanes b.data s.sram else s.sram) ∧
      ∀ p, ((afterBurst v).port p).sent = (s.port p).sent ++ lastResponses p b s := by
  rw [burstWrites_eq] at kept
  have aborts : LifeKept v (abortAll (idled v)) := (lifeKept_abortAll _).before LifeKept.same
  have all := kept.trans aborts
  have ends : afterBurst v = softResetFinish (abortAll (idled v)) := by
    rw [afterBurst_eq, if_pos (kept.softReset.trans soft)]
  rw [ends]
  refine ⟨softResetValues_softResetFinish all.lines all.porst all.powerOns all.pending, ?_, all.sram, fun p => ?_⟩
  · exact congrArg (fun m : Mgmt => { m with malformed := false, lastResult := Result.powerOn }) all.mgmt
  · rw [sent_softResetFinish_abortAll]
    exact sent p

theorem burstResponse_eq (e : Entry) (b : Burst) (s : State) :
    burstResponse e (readData b s) = completionAnswer e b s := by
  unfold burstResponse completionAnswer
  cases e.access.kind with
  | read => rfl
  | write =>
    cases e.decision with
    | admitted addrs lanes trimmed bound => cases trimmed <;> rfl
    | allAborted | refused | routed | served => rfl

/-- What has left a port and what is still to be answered, once the entry under way is settled (R7, R8, R17). -/
theorem sent_settleBurst_self {s v : State} {b : Burst} {p : Port} (source : b.source = .port p)
    (hv : v.port p = s.port p) :
    ((settleBurst p (readData b s) v).port p).sent ++
        (((settleBurst p (readData b s) v).port p).pending.map fun e => aborted e.access) =
      (s.port p).sent ++ lastResponses p b s := by
  rw [lastResponses, if_pos source]
  cases entries : (s.port p).pending with
  | nil => simp [settleBurst, hv, entries]
  | cons e es =>
    cases dropped : e.dropped with
    | true =>
      rw [settleBurst_of_dropped _ ((congrArg Piu.pending hv).trans entries) dropped]
      simp [followed, hv, dropped]
    | false =>
      rw [settleBurst_of_kept _ ((congrArg Piu.pending hv).trans entries) dropped, burstResponse_eq]
      simp [answeredAt, followed, hv, dropped]

theorem port_settleBurst_ne (data : List Word) (v : State) {p q : Port} (h : q ≠ p) :
    (settleBurst p data v).port q = v.port q := by
  unfold settleBurst
  split
  · rfl
  · rw [depart, State.port_setPort_ne _ _ h, State.port_setPort_ne _ _ h]

theorem countGroup_piu (s : State) : (countGroup s).piu = s.piu := by
  have taken (t : State) : (scrubTake t).piu = t.piu := by
    unfold scrubTake
    split <;> rfl
  have filled (i : WinIdx) : (fillComplete i s).piu = s.piu := by
    simp only [fillComplete]
    split
    · rfl
    · exact taken _
  unfold countGroup
  split
  · rfl
  · split
    · exact filled _
    · rfl

theorem exec_softResetEnd_of_port {s : State} {b : Burst} {p : Port} (soft : s.softReset = true)
    (hb : s.seq.burst = some b) (source : b.source = .port p) :
    exec .softResetEnd s = .next (portCompletion p b s) := by
  change execSoftResetEnd s = _
  simp only [execSoftResetEnd, if_pos soft, hb, source]

theorem exec_softResetEnd_of_scrub {s : State} {b : Burst} (soft : s.softReset = true)
    (hb : s.seq.burst = some b) (source : b.source = .scrub) :
    exec .softResetEnd s = .next (scrubCompletion b s) := by
  change execSoftResetEnd s = _
  simp only [execSoftResetEnd, if_pos soft, hb, source]

/-- Settles O7: the completion of either source settles its own entry or group, and what stays is answered ABORTED. -/
theorem softResetEndsAtTheCompletion : Obligations.SoftResetEndsAtTheCompletion := by
  intro s b soft hb
  have writes (q : Port) : (burstWrites b s).port q = s.port q := by rw [burstWrites_eq]; rfl
  cases source : b.source with
  | port p =>
    have bound (q : Port) : (releaseBound b.bound (burstWrites b s)).port q = s.port q :=
      (releaseBound_port _ q _).trans (writes q)
    have sent (q : Port) :
        ((settleBurst p (readData b s) (releaseBound b.bound (burstWrites b s))).port q).sent ++
          (((settleBurst p (readData b s) (releaseBound b.bound (burstWrites b s))).port q).pending.map
            fun e => aborted e.access) = (s.port q).sent ++ lastResponses q b s := by
      by_cases hq : q = p
      · subst hq
        exact sent_settleBurst_self source (bound q)
      · have other : b.source ≠ .port q := by
          rw [source]
          exact fun same => hq (Source.port.inj same).symm
        rw [port_settleBurst_ne _ _ hq, bound, lastResponses, if_neg other]
    obtain ⟨values, mgmt, sram, responses⟩ := softReset_ends soft
      ((lifeKept_settleBurst p _ _).before (lifeKept_releaseBound b.bound _)) sent
    exact ⟨_, exec_softResetEnd_of_port soft hb source, values, mgmt, sram, responses,
      exec_portBurstComplete hb source⟩
  | scrub =>
    have sent (q : Port) : ((countGroup (burstWrites b s)).port q).sent ++
        (((countGroup (burstWrites b s)).port q).pending.map fun e => aborted e.access) =
          (s.port q).sent ++ lastResponses q b s := by
      have ports : (countGroup (burstWrites b s)).port q = s.port q := by
        rw [State.port, countGroup_piu]
        exact writes q
      have other : b.source ≠ .port q := by rw [source]; exact Source.noConfusion
      rw [ports, lastResponses, if_neg other]
    obtain ⟨values, mgmt, sram, responses⟩ := softReset_ends soft (lifeKept_countGroup (burstWrites b s)) sent
    exact ⟨_, exec_softResetEnd_of_scrub soft hb source, values, mgmt, sram, responses,
      exec_scrubBurstComplete hb source⟩

end Sys2Proof.Resets
end

section
/-! PROOFS. What the registers capture (spec/10 R165, R169, R170; spec/11 section 11.4). Both a captured word and its
layout are fields in their places; the counts fit their fields by the invariants. -/

namespace Sys2Proof.Captures
open Sys2Proof.Machine Sys2Proof.Safety Sys2Proof.Frames

/-! ## Values in their places -/

/-- A value at bit `lo` of a payload. -/
def place {n : Nat} (lo : Nat) (v : BitVec n) : Payload := v.setWidth 160 <<< lo

theorem getLsbD_place {n : Nat} (lo : Nat) (v : BitVec n) (i : Nat) :
    (place lo v).getLsbD i = (decide (i < 160) && decide (lo ≤ i) && v.getLsbD (i - lo)) := by
  simp only [place, BitVec.getLsbD_shiftLeft, BitVec.getLsbD_setWidth]
  grind

theorem setWidth_eq_place {n : Nat} (v : BitVec n) : v.setWidth 160 = place 0 v := by simp [place]

theorem payload_eq_place (x : Payload) : x = place 0 x := by simp [place]

@[simp] theorem place_zero {n : Nat} (lo : Nat) : place lo 0#n = 0 := by simp [place]

@[simp] theorem place_or {n : Nat} (lo : Nat) (x y : BitVec n) : place lo (x ||| y) = place lo x ||| place lo y := by
  simp [place, BitVec.setWidth_or, BitVec.shiftLeft_or_distrib]

/-- Of a concatenation, the right part stands first and the left part behind it. -/
theorem place_append {n m : Nat} (lo : Nat) (x : BitVec n) (y : BitVec m) :
    place lo (x ++ y) = place (m + lo) x ||| place lo y := by
  refine BitVec.eq_of_getLsbD_eq fun i hi => ?_
  simp only [getLsbD_place, BitVec.getLsbD_or, BitVec.getLsbD_append]
  grind

/-- A field within its word stands at the field's bit of the word's place. -/
@[simp] theorem place_field {n : Nat} (k lo : Nat) (v : BitVec n) (inside : lo + n ≤ 32) :
    place k (field lo v) = place (lo + k) v := by
  refine BitVec.eq_of_getLsbD_eq fun i hi => ?_
  have beyond := BitVec.getLsbD_of_ge v (i - k - lo)
  simp only [getLsbD_place, field, BitVec.getLsbD_shiftLeft, BitVec.getLsbD_setWidth]
  grind

theorem payload_or_left_comm (x y z : Payload) : x ||| (y ||| z) = y ||| (x ||| z) := by
  rw [← BitVec.or_assoc, BitVec.or_comm x y, BitVec.or_assoc]

/-! ## The words of a payload -/

@[simp] theorem payloadOf_nil : payloadOf [] = 0 := rfl

theorem foldl_payload (ws : List Word) (start : Payload) :
    ws.foldl (fun (acc : Payload) (w : Word) => (acc <<< 32) ||| w.setWidth 160) start =
      start <<< (32 * ws.length) ||| payloadOf ws := by
  induction ws generalizing start with
  | nil => simp [payloadOf]
  | cons w ws ih =>
    rw [payloadOf, List.foldl_cons, List.foldl_cons, ih, ih ((0 : Payload) <<< 32 ||| w.setWidth 160),
      BitVec.shiftLeft_or_distrib, ← BitVec.shiftLeft_add, List.length_cons, Nat.mul_succ, Nat.add_comm]
    simp [BitVec.or_assoc]

/-- Word 0 is shifted first, so it stands highest (spec/11 section 11.3). -/
@[simp] theorem payloadOf_cons (w : Word) (ws : List Word) :
    payloadOf (w :: ws) = place (32 * ws.length) w ||| payloadOf ws := by
  rw [payloadOf, List.foldl_cons, foldl_payload]
  simp [place]

/-! ## Codes, counts and flags as fields -/

/-- A number is a field of `n` bits where it fits them. -/
theorem numField_eq (n : Nat) {lo v : Nat} (fits : v < 2 ^ n) : numField lo v = field lo (BitVec.ofNat n v) := by
  rw [numField, field]
  congr 1
  refine BitVec.eq_of_toNat_eq ?_
  rw [BitVec.toNat_setWidth, BitVec.toNat_ofNat, BitVec.toNat_ofNat, Nat.mod_eq_of_lt fits]

/-- A code is the field of its place in the list of codes. -/
theorem numField_code {α : Type} [BEq α] (n lo v : Nat) (codes : List α) (x : α) (fits : v < 2 ^ n)
    (code : codes.idxOf x = v) : numField lo v = field lo (codeIn n codes x) := by
  rw [numField_eq n fits, codeIn, code]

@[simp] theorem numField_phaseCode (lo : Nat) (ph : Phase) : numField lo (phaseCode ph) =
    field lo (codeIn 3 [Phase.free, .arming, .held, .taper, .lapsed, .draining, .scrubWait, .scrubbing] ph) := by
  apply numField_code <;> cases ph <;> decide

@[simp] theorem numField_kindCode (lo : Nat) (k : WinKind) :
    numField lo (kindCode k) = field lo (codeIn 1 [WinKind.grant, .fence] k) := by
  apply numField_code <;> cases k <;> decide

@[simp] theorem numField_policyCode (lo : Nat) (x : LanePolicy) :
    numField lo (policyCode x) = field lo (policyBit x) := by
  apply numField_code <;> cases x <;> decide

@[simp] theorem numField_portStateCode (lo : Nat) (x : PortState) :
    numField lo (portStateCode x) = field lo (codeIn 2 [PortState.active, .stopped, .inReset] x) := by
  apply numField_code <;> cases x <;> decide

@[simp] theorem numField_engineCode (lo : Nat) (e : EngineState) :
    numField lo (engineCode e) = field lo (engineBits e) := by
  apply numField_code <;> cases e <;> decide

@[simp] theorem numField_faultKindCode (lo : Nat) (k : FaultKind) :
    numField lo (faultKindCode k) = field lo (codeIn 2 [FaultKind.read, .write, .control] k) := by
  apply numField_code <;> cases k <;> decide

@[simp] theorem numField_portCode (lo : Nat) (p : Port) : numField lo (portCode p) = field lo (portBits p) := by
  apply numField_code <;> cases p <;> decide

@[simp] theorem numField_resultCodeNum (lo : Nat) (c : ResultCode) : numField lo (resultCodeNum c) =
    field lo (codeIn 4 [ResultCode.done, .staleHead, .queueEmpty, .noFreeWindow, .badGeometry, .targetRange, .overlap,
      .targetBusy, .badEnvelope, .wrongState, .badIndex, .badAction] c) := by
  apply numField_code <;> cases c <;> decide

@[simp] theorem numField_reasonCode (lo : Nat) (r : Reason) : numField lo (reasonCode r) = field lo (reasonBits r) := by
  have bits : BitVec.ofNat 5 (reasonCode r) = reasonBits r := by cases r <;> decide
  rw [numField_eq 5 (by cases r <;> decide), bits]

@[simp] theorem bitField_eq (lo : Nat) (b : Bool) : bitField lo b = field lo (BitVec.ofBool b) := by
  rw [bitField, numField_eq 1 (by cases b <;> decide)]
  cases b <;> rfl

/-- A window index, 0 where absent. -/
def indexOrZero (i : Option WinIdx) : BitVec 5 := BitVec.ofNat 5 ((i.map (·.val)).getD 0)

@[simp] theorem indexField_eq (lo : Nat) (i : Option WinIdx) : indexField lo i = field lo (indexOrZero i) := by
  cases i with
  | none => exact numField_eq 5 (by decide)
  | some x => exact numField_eq 5 x.isLt

@[simp] theorem place_indexBits (lo : Nat) (i : Option WinIdx) :
    place lo (indexBits i) = place (5 + lo) (BitVec.ofBool i.isSome) ||| place lo (indexOrZero i) := by
  rw [← place_append]
  cases i <;> rfl

/-- ANY is set with one of the four group flags (R155). -/
theorem anyFlag_eq (x : Piu) : x.anyFlag = (x.flags.extractLsb' 0 4 != 0) := by
  have all : ∀ f : BitVec 5, ((f &&& 15) != 0) = (f.extractLsb' 0 4 != 0) := by decide
  exact all x.flags

theorem captureOf_of_register {sel : BitVec 8} {r : Register} (h : registerOf sel = some r) (s : State) :
    captureOf sel s = r.content s := by
  rw [captureOf, h]

/-! ## The registers

In each, the layout is taken apart into its fields first, and the captured words then show the same fields. -/

theorem capture_ident (s : State) : captureOf 0 s = 0x5A487FFF := by
  rw [captureOf_of_register (r := .ident) (by decide)]
  rfl

/-- Settles O40: the content of IDENT is a constant of the part. -/
theorem identIsFixed : Obligations.IdentIsFixed := by
  intro s
  rw [capture_ident]
  refine ⟨rfl, by decide, by decide, by decide, by decide, by decide, by decide, by decide, fun sel unassigned => ?_⟩
  rw [captureOf, unassigned]

theorem capture_status {s : State} (queue : s.requests.length < 2 ^ 5) (overflow : s.faults.overflow < 2 ^ 8) :
    captureOf 1 s = (statusLayout s).setWidth 160 := by
  rw [captureOf_of_register (r := .status) (by decide)]
  simp only [statusLayout, setWidth_eq_place, place_append]
  simp [Register.content, statusWord, numField_eq 5 queue, numField_eq 8 overflow]

theorem capture_attnEnable (s : State) : captureOf 2 s = s.attn.enables.setWidth 160 := by
  rw [captureOf_of_register (r := .attnEnable) (by decide), setWidth_eq_place]
  simp [Register.content]

theorem capture_attnAck (s : State) : captureOf 3 s = s.attn.pending.setWidth 160 := by
  rw [captureOf_of_register (r := .attnAck) (by decide), setWidth_eq_place]
  simp [Register.content]

theorem capture_clock (s : State) : captureOf 4 s = (clockLayout s.clock).setWidth 160 := by
  rw [captureOf_of_register (r := .clock) (by decide)]
  simp only [clockLayout, setWidth_eq_place, place_append]
  simp [Register.content, clockWords]

/-- The counts of a SCRUB register fit their fields: a list of windows, each once, and a progress within a size. -/
structure ScrubFits (e : ScrubEngine) : Prop where
  list : e.list.length < 2 ^ 6
  offset : ∀ g, e.progress = some g → g.nextOffset < 2 ^ 20
  words : ∀ g, e.progress = some g → g.wordsRemaining < 2 ^ 21

theorem capture_scrub {s : State} (fits : ScrubFits s.scrub) :
    captureOf 5 s = (scrubLayout s.scrub).setWidth 160 := by
  rw [captureOf_of_register (r := .scrub) (by decide)]
  simp only [scrubLayout, setWidth_eq_place, place_append]
  cases progress : s.scrub.progress with
  | none => simp [Register.content, scrubWords, progress, numField_eq 6 fits.list, indexOrZero, BitVec.or_assoc]
  | some g =>
    simp [Register.content, scrubWords, progress, numField_eq 6 fits.list, numField_eq 20 (fits.offset g progress),
      numField_eq 21 (fits.words g progress), numField_eq 5 g.window.isLt, indexOrZero, BitVec.or_assoc,
      payload_or_left_comm]

theorem capture_requestHead {s : State} (queue : s.requests.length < 2 ^ 5) :
    captureOf 7 s = (headLayout s.requests).setWidth 160 := by
  rw [captureOf_of_register (r := .requestHead) (by decide)]
  cases requests : s.requests with
  | nil =>
    simp only [headLayout, setWidth_eq_place, place_append]
    simp [Register.content, requestHeadWords, requests]
  | cons r rest =>
    have length : rest.length + 1 < 2 ^ 5 := by simpa [requests] using queue
    cases body : r.body with
    | new f =>
      simp only [headLayout, body, setWidth_eq_place, place_append]
      simp [Register.content, requestHeadWords, requests, body, newWord0, newWord1, numField_eq 5 length,
        BitVec.or_assoc]
    | extend i =>
      simp only [headLayout, body, setWidth_eq_place, place_append]
      simp [Register.content, requestHeadWords, requests, body, numField_eq 5 length, numField_eq 5 i.isLt,
        BitVec.or_assoc, payload_or_left_comm]

theorem capture_action (s : State) : captureOf 8 s = (resultLayout s.mgmt.lastResult).setWidth 160 := by
  rw [captureOf_of_register (r := .action) (by decide)]
  simp only [resultLayout, setWidth_eq_place, place_append]
  simp [Register.content, resultWords, BitVec.or_assoc]

theorem capture_port {s : State} {p : Port} (depth : (s.scopes.get p).length < 2 ^ 4)
    (tickets : s.tickets.get p < 2 ^ 3) (replies : (s.replies.get p).length < 2 ^ 3) :
    captureOf (BitVec.ofNat 8 (0x10 + portCode p)) s = (portLayout s p).setWidth 160 := by
  rw [captureOf_of_register (Registers.registerOf_port p)]
  simp only [portLayout, setWidth_eq_place, place_append]
  simp [Register.content, portWord, anyFlag_eq, numField_eq 4 depth, numField_eq 3 tickets, numField_eq 3 replies]

theorem capture_fault {s : State} {n : Fin 8}
    (fits : ∀ x, s.faults.slots[n] = some x → x.depth < 2 ^ 4 ∧ x.repeats < 2 ^ 4) :
    captureOf (BitVec.ofNat 8 (0x20 + n.val)) s = (faultLayout s.faults.slots[n]).setWidth 160 := by
  rw [captureOf_of_register (registerOf_fault n), Register.content]
  cases slot : s.faults.slots[n] with
  | none => rfl
  | some x =>
    obtain ⟨depth, repeats⟩ := fits x slot
    simp only [faultLayout, setWidth_eq_place, place_append]
    simp [faultWords, numField_eq 4 depth, numField_eq 4 repeats, BitVec.or_assoc]

/-- An absent origin has the zeros of port A (spec/11 section 11.4.6). -/
theorem portBits_a : portBits .a = 0 := rfl

theorem capture_window {s : State} {i : WinIdx} (inFlight : (s.win i).inFlight < 2 ^ 4)
    (scopeRefs : (s.win i).scopeRefs < 2 ^ 6) :
    captureOf (BitVec.ofNat 8 (0x40 + i.val)) s = windowLayout (s.win i) := by
  rw [captureOf_of_register (registerOf_window i), payload_eq_place (windowLayout _), Register.content]
  simp only [windowLayout, place_append]
  cases origin : (s.win i).origin <;>
    simp [windowWords, originField, origin, portBits_a, numField_eq 4 inFlight, numField_eq 6 scopeRefs,
      BitVec.or_assoc]

/-! ## FIXED_MAP (spec/11 section 11.4.3) -/

/-- A granule byte shifted in behind what stands. -/
def withByte (x : Payload) (e : PerPort MapEntry) : Payload := (x <<< 8) ||| (granuleByte e).setWidth 160

theorem mapPayload_eq (m : FixedMap) :
    mapPayload m = m.entries.toList.foldl withByte (place 0 (field 7 (BitVec.ofBool m.enabled))) := by
  rw [← bitField_eq, bitField, ← setWidth_eq_place]
  rfl

theorem getLsbD_withByte_low (x : Payload) (e : PerPort MapEntry) {j : Nat} (h : j < 8) :
    (withByte x e).getLsbD j = (granuleByte e).getLsbD j := by
  simp [withByte, h, show j < 160 by omega]

theorem getLsbD_withByte_high (x : Payload) (e : PerPort MapEntry) {j : Nat} (h : 8 + j < 160) :
    (withByte x e).getLsbD (8 + j) = x.getLsbD j := by
  rw [withByte, BitVec.getLsbD_or, BitVec.getLsbD_shiftLeft, BitVec.getLsbD_setWidth,
    BitVec.getLsbD_of_ge _ _ (Nat.le_add_right 8 j), Nat.add_sub_cancel_left]
  simp [h]

/-- What stood before a list of bytes stands above them. -/
theorem getLsbD_foldl_withByte (l : List (PerPort MapEntry)) (x : Payload) {j : Nat} (h : 8 * l.length + j < 160) :
    (l.foldl withByte x).getLsbD (8 * l.length + j) = x.getLsbD j := by
  induction l generalizing x j with
  | nil => simp
  | cons e l ih =>
    rw [List.length_cons] at h ⊢
    rw [show 8 * (l.length + 1) + j = 8 * l.length + (8 + j) by omega, List.foldl_cons, ih _ (by omega),
      getLsbD_withByte_high _ _ (by omega)]

section Map
variable (m : FixedMap)

/-- Above the sixteen granule bytes stands the byte with the enable. -/
theorem getLsbD_mapPayload_head {j : Nat} (h : j < 32) :
    (mapPayload m).getLsbD (128 + j) = (decide (j = 7) && m.enabled) := by
  have bits := getLsbD_foldl_withByte m.entries.toList (place 0 (field 7 (BitVec.ofBool m.enabled)))
    (j := j) (by rw [Vector.length_toList]; omega)
  rw [Vector.length_toList] at bits
  rw [mapPayload_eq, bits, place_field _ _ _ (by decide), getLsbD_place]
  by_cases enable : j = 7
  · simp [enable]
  · have outside : 7 ≤ j → j - 7 ≠ 0 := by omega
    simp only [BitVec.getLsbD_ofBool]
    grind

/-- The byte of granule `g` has the bytes of the later granules below it. -/
theorem getLsbD_mapPayload_granule (g : Fin 16) {j : Nat} (h : j < 8) :
    (mapPayload m).getLsbD (8 * (15 - g.val) + j) = (granuleByte m.entries[g]).getLsbD j := by
  have later : (m.entries.toList.drop (g.val + 1)).length = 15 - g.val := by
    rw [List.length_drop, Vector.length_toList]
    omega
  have parts : m.entries.toList =
      m.entries.toList.take g.val ++ m.entries[g] :: m.entries.toList.drop (g.val + 1) := by
    have split := (List.take_append_drop g.val m.entries.toList).symm
    rwa [List.drop_eq_getElem_cons (by simp), Vector.getElem_toList] at split
  rw [mapPayload_eq, parts, List.foldl_append, List.foldl_cons, ← later,
    getLsbD_foldl_withByte _ _ (by rw [later]; omega), getLsbD_withByte_low _ _ h]

end Map

/-- The entry of each port in a granule byte. -/
theorem extractLsb'_granuleByte (e : PerPort MapEntry) (p : Port) :
    (granuleByte e).extractLsb' (2 * portCode p) 2 = codeIn 2 [MapEntry.none, .read, .readWrite] (e.get p) := by
  have small (x : MapEntry) : mapEntryCode x < 4 := by cases x <;> decide
  have code (x : MapEntry) : [MapEntry.none, .read, .readWrite].idxOf x = mapEntryCode x := by cases x <;> decide
  have := small e.a; have := small e.b; have := small e.c; have := small e.d
  refine BitVec.eq_of_toNat_eq ?_
  rw [codeIn, code, BitVec.extractLsb'_toNat, granuleByte, BitVec.toNat_ofNat, BitVec.toNat_ofNat,
    Nat.shiftRight_eq_div_pow]
  cases p <;> simp only [portCode, PerPort.get] <;> omega

theorem capture_fixedMap (s : State) : captureOf 6 s = mapPayload s.map :=
  captureOf_of_register (r := .fixedMap) (by decide) s

theorem capture_fixedMap_enabled (s : State) : (captureOf 6 s).getLsbD 135 = s.map.enabled := by
  rw [capture_fixedMap]
  simpa using getLsbD_mapPayload_head s.map (j := 7) (by decide)

/-- The reserved bits about the enable are 0. -/
theorem capture_fixedMap_reserved (s : State) :
    (captureOf 6 s).extractLsb' 136 24 = 0 ∧ (captureOf 6 s).extractLsb' 128 7 = 0 := by
  rw [capture_fixedMap]
  constructor <;> refine BitVec.eq_of_getLsbD_eq fun k hk => ?_
  · rw [BitVec.getLsbD_extractLsb', show 136 + k = 128 + (8 + k) by omega,
      getLsbD_mapPayload_head _ (by omega)]
    simp [show 8 + k ≠ 7 by omega]
  · rw [BitVec.getLsbD_extractLsb', getLsbD_mapPayload_head _ (by omega)]
    simp [show k ≠ 7 by omega]

theorem capture_fixedMap_entry (s : State) (g : Fin 16) (p : Port) :
    (captureOf 6 s).extractLsb' (8 * (15 - g.val) + 2 * portCode p) 2 =
      codeIn 2 [MapEntry.none, .read, .readWrite] (s.map.entries[g].get p) := by
  rw [capture_fixedMap, ← extractLsb'_granuleByte]
  refine BitVec.eq_of_getLsbD_eq fun k hk => ?_
  have inside : 2 * portCode p + k < 8 := by cases p <;> simp only [portCode] <;> omega
  rw [BitVec.getLsbD_extractLsb', BitVec.getLsbD_extractLsb', Nat.add_assoc,
    getLsbD_mapPayload_granule _ _ inside]

/-! ## The counts fit their fields -/

/-- Four ports with at most `n` each. -/
theorem sum_ports_le {f : Port → Nat} {n : Nat} (h : ∀ p, f p ≤ n) : (allPorts.map f).sum ≤ 4 * n := by
  have := h .a; have := h .b; have := h .c; have := h .d
  simp only [allPorts, List.map_cons, List.map_nil, List.sum_cons, List.sum_nil]
  omega

theorem inFlight_le {s : State} (inv : Invariants s) (i : WinIdx) : (s.win i).inFlight ≤ 8 := by
  rw [(inv.bindings i).1]
  exact sum_ports_le fun p => Nat.le_trans List.countP_le_length (inv.places.1 p).1

theorem scopeRefs_le {s : State} (inv : Invariants s) (i : WinIdx) : (s.win i).scopeRefs ≤ 32 := by
  rw [inv.scopes.1 i]
  exact sum_ports_le fun p => Nat.le_trans List.countP_le_length (inv.places.1 p).2

/-- A list of distinct elements of another list is no longer than that one. -/
theorem length_le_of_nodup_subset {α : Type} [DecidableEq α] {l m : List α} (distinct : l.Nodup)
    (subset : ∀ x ∈ l, x ∈ m) : l.length ≤ m.length := by
  induction l generalizing m with
  | nil => exact Nat.zero_le _
  | cons x l ih =>
    obtain ⟨fresh, distinct⟩ := List.nodup_cons.1 distinct
    have mem : x ∈ m := subset x List.mem_cons_self
    have rest : l.length ≤ (m.erase x).length := by
      refine ih distinct fun y hy => ?_
      have other : y ≠ x := fun same => fresh (same ▸ hy)
      exact (List.mem_erase_of_ne other).2 (subset y (List.mem_cons_of_mem x hy))
    have erased := List.length_erase_of_mem mem
    have nonempty := List.length_pos_of_mem mem
    rw [List.length_cons]
    omega

/-- The part has 32 windows. -/
theorem length_le_of_distinct {l : List WinIdx} (distinct : l.Nodup) : l.length ≤ 32 := by
  have windows := length_le_of_nodup_subset distinct fun i _ => List.mem_finRange i
  rwa [List.length_finRange] at windows

/-- The progress record stands within the size of an occupied window, at most 2^20 words. -/
theorem scrubFits {s : State} (inv : Invariants s) : ScrubFits s.scrub := by
  obtain ⟨-, distinct, scrubbing, counts⟩ := inv.scrub
  have progress (g : ScrubProgress) (hg : s.scrub.progress = some g) :
      4 ≤ g.wordsRemaining ∧ g.nextOffset + g.wordsRemaining ≤ 2 ^ 20 := by
    obtain ⟨-, -, words, sum⟩ := counts g hg
    have phase : (s.win g.window).phase = .scrubbing := (scrubbing g.window).2 (by rw [hg]; rfl)
    have formed := (inv.formed g.window).2.1 (by rw [phase]; decide)
    exact ⟨words, sum ▸ Nat.pow_le_pow_right (by decide) formed.sizeClass.2⟩
  refine ⟨?_, fun g hg => ?_, fun g hg => ?_⟩
  · have windows := length_le_of_distinct distinct
    omega
  · have := progress g hg
    omega
  · have := progress g hg
    omega

/-- Settles O41, register by register. -/
theorem registerCaptures : Obligations.RegisterCaptures := by
  intro s inv
  obtain ⟨-, queue, -, overflow⟩ := inv.places
  obtain ⟨above, below⟩ := capture_fixedMap_reserved s
  refine ⟨capture_status (by omega) (by omega), capture_attnEnable s, capture_attnAck s, capture_clock s,
    capture_scrub (scrubFits inv), above, capture_fixedMap_enabled s, below, capture_fixedMap_entry s,
    capture_requestHead (by omega), capture_action s, fun p => ?_, fun n => ?_, fun i => ?_⟩
  · have depth := (inv.places.1 p).2
    have counted := inv.tickets p
    exact capture_port (by omega) (by omega) (by omega)
  · refine capture_fault fun x hx => ?_
    obtain ⟨depth, -, repeats⟩ := inv.faults.2 n x hx
    omega
  · have inFlight := inFlight_le inv i
    have scopeRefs := scopeRefs_le inv i
    exact capture_window (by omega) (by omega)

end Sys2Proof.Captures
end

section
/-! PROOFS. The step and the front of the queue (spec/00 section 5.6; log 16). -/

namespace Sys2Proof.Front
open Sys2Proof.Machine

/-- Where a command waits, the step takes the branch of the queue that is not empty. -/
theorem step_of_front {s : State} {c : Instr} {rest : List Instr} (front : s.pending = c :: rest) :
    step s = exec c { s with pending := rest } := by
  simp only [step, front]

/-- Settles O1: the command put at the front of the queue is the one that the step finds there. -/
theorem stepRunsFrontCommand : Obligations.StepRunsFrontCommand := by
  intro c rest s
  have front : ({ s with pending := c :: rest } : State).pending = c :: rest := rfl
  exact step_of_front front

end Sys2Proof.Front
end

section
/-! PROOFS. The values after power-on reset (spec/01 R14, R18; spec/02 R45; spec/04 R88): block by block, and the
invariants of the tables, which are empty there. -/

namespace Sys2Proof.PowerOn
open Sys2Proof.Machine Sys2Proof.Safety

/-! ## The blocks -/

@[simp] theorem reset_port (p : Port) : State.reset.port p = Piu.powerOn := PerPort.get_all _ p

@[simp] theorem reset_win (i : WinIdx) : State.reset.win i = Window.cleared := by
  simp [State.reset, State.win]

@[simp] theorem reset_scopes (p : Port) : State.reset.scopes.get p = [] := PerPort.get_all _ p

@[simp] theorem reset_replies (p : Port) : State.reset.replies.get p = [] := PerPort.get_all _ p

@[simp] theorem reset_tickets (p : Port) : State.reset.tickets.get p = 4 := PerPort.get_all _ p

@[simp] theorem reset_slot (n : Fin 8) : State.reset.faults.slots[n] = none := by
  simp [State.reset, FaultRecorder.powerOn]

theorem reset_mapEntry (g : Fin 16) (p : Port) : State.reset.map.entries[g].get p = .none := by
  simp [State.reset, FixedMap.powerOn]

/-- Settles O3, block by block. -/
theorem resetValues : Obligations.ResetValues :=
  ⟨fun p => by rw [reset_port]; exact ⟨rfl, rfl, rfl, rfl, rfl, rfl, reset_tickets p, reset_replies p, reset_scopes p⟩,
    reset_win, rfl, reset_mapEntry, rfl, rfl, rfl, rfl, reset_slot, rfl, rfl, by decide, rfl, rfl, rfl⟩

/-! ## The invariants -/

theorem reset_not_held (i : WinIdx) (p : Port) : ¬ holdsGrant (State.reset.win i) p := by
  rw [reset_win]
  exact fun h => h.1 rfl

theorem reset_untimed (i : WinIdx) : ¬ timedPhase (State.reset.win i) := by
  simp [timedPhase, Window.cleared]

theorem reset_withinPlaces : withinPlaces State.reset := by
  refine ⟨fun p => ?_, by decide, by decide, by decide⟩
  rw [reset_port, reset_scopes]
  exact ⟨Nat.zero_le _, Nat.zero_le _⟩

theorem reset_windowsFormed : windowsFormed State.reset := fun i => by
  rw [reset_win]
  exact ⟨fun _ => rfl, fun h => absurd rfl h, fun h => by cases h⟩

theorem reset_bindingsCounted : bindingsCounted State.reset := fun i => by
  rw [reset_win]
  exact ⟨by simp [allPorts, Piu.powerOn, Window.cleared], fun _ => rfl⟩

theorem reset_burstMatches : burstMatches State.reset := by
  refine ⟨fun b p h => (by cases h), fun p older younger e h => ?_⟩
  rw [reset_port] at h
  simp [Piu.powerOn] at h

theorem reset_scopesCounted : scopesCounted State.reset := by
  refine ⟨fun i => ?_, fun p f h => ?_⟩
  · rw [reset_win]; simp [allPorts, Window.cleared]
  · rw [reset_scopes] at h; cases h

theorem reset_scrubMatches : scrubMatches State.reset := by
  refine ⟨fun i => ?_, List.nodup_nil, fun i => ?_, fun g h => by cases h⟩ <;> rw [reset_win]
  · exact ⟨fun h => (by cases h), fun h => (by cases h)⟩
  · exact ⟨fun h => (by cases h), fun h => (by cases h)⟩

theorem reset_expiryMatches : expiryMatches State.reset := by
  refine ⟨fun i => iff_of_false ?_ (reset_untimed i), fun i d => ?_, List.nodup_nil, .nil, fun e h => (by cases h)⟩ <;>
    rw [reset_win]
  · exact Bool.false_ne_true
  · exact ⟨fun h => (by cases h), fun h => (by cases h)⟩

theorem reset_faultsApart : faultsApart State.reset :=
  (Requests.faultsApart_iff _).2 Requests.faultsSound_reset.1

theorem reset_invariants : Invariants State.reset where
  tickets p := by rw [reset_tickets, reset_replies]; rfl
  places := reset_withinPlaces
  lines p := by rw [reset_port]; exact ⟨fun h => (by cases h), fun h => (by cases h)⟩
  oldest p e es h := by rw [reset_port] at h; cases h
  engine := ⟨⟨fun _ => rfl, fun _ => rfl⟩, fun _ => rfl⟩
  grants i j p _ h := absurd h (reset_not_held i p)
  scrubs i j a b _ h := by rw [reset_win] at h; exact absurd rfl h
  formed := reset_windowsFormed
  bindings := reset_bindingsCounted
  burst := reset_burstMatches
  scopes := reset_scopesCounted
  scrub := reset_scrubMatches
  expiry := reset_expiryMatches
  requests := .nil
  faults := reset_faultsApart

/-- Settles O60: the tables and lists are empty, and no source is a candidate. -/
theorem resetHasTheInvariants : Obligations.ResetHasTheInvariants :=
  ⟨rfl, reset_invariants, .inr (.inr (.inr ⟨rfl, fun p => by rw [portCandidate, reset_port]; rfl⟩))⟩

end Sys2Proof.PowerOn
end

section
/-! PROOFS. Acceptance of accesses (spec/01 R3, R4, R10 to R13): what is not accepted, what is refused at acceptance, and
control accesses routed or served. -/

namespace Sys2Proof.Acceptance
open Sys2Proof.Machine Sys2Proof.Safety

/-! ## Offers that a port does not accept (R3) -/

/-- A port that accepts an access meets every condition of R3. -/
theorem accepts_of_canAccept {s : State} {p : Port} {acc : Access} (h : canAccept s p acc = true) :
    accepts s p acc.kind := by
  simp only [canAccept, Bool.and_eq_true, bne_iff_ne, Bool.not_eq_true', decide_eq_true_eq, Bool.or_eq_true,
    beq_iff_eq] at h
  obtain ⟨⟨⟨⟨⟨-, notReset⟩, porst⟩, soft⟩, places⟩, discard⟩ := h
  refine ⟨?_, ⟨porst, soft⟩, places, fun write => discard.resolve_left (by simp [write])⟩
  cases state : (s.port p).state with
  | active => exact .inl rfl
  | stopped => exact .inr rfl
  | inReset => exact absurd state notReset

/-- Settles O8: the three rows ask for the same acceptance. -/
theorem offerNotAcceptedChangesNothing : Obligations.OfferNotAcceptedChangesNothing := by
  intro p acc s h
  have offered : ¬ canAccept s p acc = true := fun can => h (accepts_of_canAccept can)
  refine ⟨congrArg Host.Outcome.next ?_, congrArg Host.Outcome.next ?_, fun read => congrArg Host.Outcome.next ?_⟩
  · simp [offered]
  · simp [offered]
  · exact if_neg fun can => h (by rw [read]; exact accepts_of_canAccept can)

/-! ## The aperture table (R10) -/

/-- Settles O12: the two words of the first row, and the rows by kind. -/
theorem wellShapedControlAccesses : Obligations.WellShapedControlAccesses := by
  refine ⟨fun acc address beats => ?_, fun acc aperture => ?_⟩
  · rw [beatAddressesOf, address, beats]
    rfl
  · have word : apertureWordOf acc = acc.address.toNat - 4194288 := rfl
    cases kind : acc.kind <;>
      simp only [wellShaped, kind, Bool.or_eq_true, Bool.and_eq_true, beq_iff_eq, decide_eq_true_eq, reduceCtorEq,
        true_and, false_and, false_or, or_false] <;> omega

/-! ## A read answered at its acceptance -/

section Served
variable {s : State} {p : Port} {acc : Access} {dec : Decision} {r : Response}

/-- A settled entry enters behind unsettled ones and waits, or finds the list empty and leaves (R8). -/
theorem enterPending_settled (oldest : oldestUnsettled s) :
    enterPending p ((entryAtAcceptance acc dec).settle r) s = servedRead p acc dec r s := by
  unfold enterPending servedRead answeredAt
  cases pending : (s.port p).pending with
  | nil => simp [depart, leaving, followed, Entry.settle]
  | cons x xs =>
    refine (depart_of_unsettled fun e es he => ?_).trans rfl
    rw [State.port_setPort_self] at he
    cases he
    exact oldest p x xs pending

/-- An answered read leaves the other ports' lists and what is no port. -/
theorem noGrantDue_servedRead (quiet : noGrantDue s) : noGrantDue (servedRead p acc dec r s) := by
  unfold servedRead answeredAt
  cases pending : (s.port p).pending with
  | nil =>
    refine Admission.noGrantDue_of_same (s := s) (fun q => ?_) rfl rfl rfl rfl quiet
    by_cases hq : q = p
    · rw [hq]; simp [followed, pending]
    · simp [followed, State.port_setPort_ne _ _ hq]
  | cons x xs =>
    refine Admission.noGrantDue_append (s := s) (e := (entryAtAcceptance acc dec).settle r) ?_ (.inl ?_) quiet
    · rw [pending]; rfl
    · simp [Entry.settle]

/-- A READ that is refused or served is settled at acceptance (R7). -/
theorem newEntry_refused_read (reason : Reason) (read : acc.kind = .read) :
    newEntry acc (.refused reason) = (entryAtAcceptance acc (.refused reason)).settle (refusal acc reason) := by
  simp [newEntry, read, entryAtAcceptance, blankEntry, Entry.settle, refusedResponse, refusal, zeroData]

theorem newEntry_served (w : Word) (read : acc.kind = .read) :
    newEntry acc (.served w) = (entryAtAcceptance acc (.served w)).settle ⟨.ok, none, [w]⟩ := by
  simp [newEntry, read, entryAtAcceptance, blankEntry, Entry.settle, okResponse]

/-- A WRITE waits for its data, so it leaves the list as it stands. -/
theorem enterPending_write (oldest : oldestUnsettled s) (write : acc.kind = .write) : enterPending p (newEntry acc dec) s =
    s.setPort p { s.port p with pending := (s.port p).pending ++ [entryAtAcceptance acc dec] } := by
  rw [Admission.newEntry_write dec write]
  refine depart_of_unsettled fun e es he => ?_
  rw [State.port_setPort_self] at he
  cases pending : (s.port p).pending with
  | nil =>
    rw [pending] at he
    cases he
    exact Admission.entryAtAcceptance_unsettled acc dec
  | cons x xs =>
    rw [pending] at he
    cases he
    exact oldest p _ _ pending

/-- An access refused at acceptance takes its entry, after its fault event (R4, R7, R11). -/
theorem enterPending_refused (reason : Reason) (oldest : oldestUnsettled s) :
    enterPending p (newEntry acc (.refused reason)) s = refusedEntry p acc reason s := by
  cases kind : acc.kind with
  | read => rw [newEntry_refused_read reason kind, enterPending_settled oldest, refusedEntry, if_neg (by simp [kind])]
  | write => rw [enterPending_write oldest kind, refusedEntry, if_pos kind]

/-- The entry of an access that is refused is no candidate. -/
theorem noGrantDue_refusedEntry (reason : Reason) (quiet : noGrantDue s) : noGrantDue (refusedEntry p acc reason s) := by
  unfold refusedEntry
  split
  · rename_i write
    exact Admission.noGrantDue_append rfl (.inl (by simp [entryAtAcceptance, write])) quiet
  · exact noGrantDue_servedRead quiet

end Served

/-! ## Refusals at acceptance (R4, R11) -/

theorem oldestUnsettled_faultEvent {s : State} (p : Port) (reason : Reason) (kind : FaultKind) (a : PortAddr)
    (w : Option WinIdx) (h : oldestUnsettled s) : oldestUnsettled (faultEvent p reason kind a w s) := by
  intro q e es hq
  rw [Bursts.pending_of_stage (Bursts.stage_faultEvent p reason kind a w s)] at hq
  exact h q e es hq

section Refused
variable {s : State} {p : Port} {acc : Access} {reason : Reason}

/-- A data access refused with its fault event: its entry makes no grant decision due. -/
theorem grantDecision_acceptData_refused {window : Option WinIdx} (oldest : oldestUnsettled s) (quiet : noGrantDue s)
    (verdict : dataVerdict p acc s = .refused reason window) : grantDecision (acceptData p acc s) =
      refusedEntry p acc reason (faultEvent p reason (dataFaultKind acc) acc.address window s) := by
  have faulted := Bursts.stage_faultEvent p reason (dataFaultKind acc) acc.address window s
  have entry : acceptData p acc s =
      refusedEntry p acc reason (faultEvent p reason (dataFaultKind acc) acc.address window s) := by
    rw [acceptData, verdict]
    exact enterPending_refused reason (oldestUnsettled_faultEvent _ _ _ _ _ oldest)
  rw [entry, grantDecision_of_noGrantDue (noGrantDue_refusedEntry reason (Bursts.noGrantDue_of_stage faulted quiet))]

theorem exec_acceptDataAccess_accepted (wf : (Instr.acceptDataAccess p acc).wellFormed = true)
    (can : accepts s p acc.kind) : exec (.acceptDataAccess p acc) s = .next (grantDecision (acceptData p acc s)) := by
  obtain ⟨shape, data⟩ : acc.wellFormed = true ∧ (!acc.isControl) = true := by
    simpa only [Instr.wellFormed, Bool.and_eq_true] using wf
  rw [Admission.exec_acceptDataAccess, Admission.canAccept_of_accepts shape can, data]
  rfl

theorem exec_acceptControlAccess_accepted (wf : (Instr.acceptControlAccess p acc).wellFormed = true)
    (can : accepts s p acc.kind) : exec (.acceptControlAccess p acc) s = .next (acceptControl p acc s) := by
  obtain ⟨shape, control⟩ : acc.wellFormed = true ∧ acc.isControl = true := by
    simpa only [Instr.wellFormed, Bool.and_eq_true] using wf
  refine congrArg Host.Outcome.next (if_pos ?_)
  rw [Admission.canAccept_of_accepts shape can, control]
  rfl

theorem refuseControl_eq (oldest : oldestUnsettled s) : refuseControl p acc reason s =
    refusedEntry p acc reason (faultEvent p reason .control acc.address none s) :=
  enterPending_refused reason (oldestUnsettled_faultEvent _ _ _ _ _ oldest)

theorem acceptControl_of_stopped (write : acc.kind = .write) (stopped : (s.port p).state = .stopped) :
    acceptControl p acc s = refuseControl p acc .portStopped s :=
  if_pos (by simp [write, stopped])

theorem acceptControl_of_illShaped (live : ¬ (acc.kind = .write ∧ (s.port p).state = .stopped))
    (shape : wellShaped acc = false) : acceptControl p acc s = refuseControl p acc .controlBad s := by
  unfold acceptControl
  rw [if_neg (by simpa using live), if_pos (by simp [shape])]

end Refused

/-- Settles O11: the verdict of the Admission Unit or of a STOPPED port, and the first check of R11 that applies. -/
theorem refusedAtAcceptance : Obligations.RefusedAtAcceptance := by
  refine ⟨fun p acc s reason window wf can oldest quiet why => ?_, fun p acc s reason wf can oldest why => ?_⟩
  · have verdict : dataVerdict p acc s = .refused reason window := by
      rcases why with ⟨active, refused⟩ | ⟨stopped, rfl, rfl⟩
      · simp [dataVerdict, active, refused]
      · simp [dataVerdict, stopped]
    rw [exec_acceptDataAccess_accepted wf can]
    exact congrArg Host.Outcome.next (grantDecision_acceptData_refused oldest quiet verdict)
  · rw [exec_acceptControlAccess_accepted wf can, ← refuseControl_eq oldest]
    rcases why with ⟨write, stopped, rfl⟩ | ⟨live, shape, rfl⟩
    · rw [acceptControl_of_stopped write stopped]
    · rw [acceptControl_of_illShaped live shape]

/-! ## Control accesses routed and served (R11, R13, R104) -/

section Served
variable {s : State} {p : Port} {acc : Access}

theorem acceptControl_of_read (read : acc.kind = .read) (shape : wellShaped acc = true) :
    acceptControl p acc s = serveControl p acc s := by
  simp [acceptControl, read, shape]

/-- A control read with its word: the state after it is supplied takes the answered read. -/
theorem serveControl_eq {t : State} {w : Word} (read : acc.kind = .read) (word : controlRead p acc s = (w, t))
    (oldest : oldestUnsettled t) : serveControl p acc s = servedRead p acc (.served w) ⟨.ok, none, [w]⟩ t := by
  rw [serveControl, word, newEntry_served w read, enterPending_settled oldest]

/-- A read of aperture word 8 serves the oldest reply (R104). -/
theorem controlRead_reply (address : acc.address.toNat = 4194296) : controlRead p acc s = serveReply p s := by
  simp [controlRead, apertureWordOf, Config.apertureBase, address]

theorem controlRead_status (address : acc.address.toNat = 4194297) : controlRead p acc s = (portWord s p, s) := by
  simp [controlRead, apertureWordOf, Config.apertureBase, address]

theorem controlRead_time (address : acc.address.toNat = 4194298) : controlRead p acc s = (s.clock.time, s) := by
  simp [controlRead, apertureWordOf, Config.apertureBase, address]

end Served

/-! ### The words that are read -/

/-- A word is known by its place in a payload. -/
theorem place_inj {x y : Word} (h : Captures.place 0 x = Captures.place 0 y) : x = y := by
  refine BitVec.eq_of_getLsbD_eq fun i hi => ?_
  have bit := congrArg (fun z : Payload => z.getLsbD i) h
  simpa only [Captures.getLsbD_place, Nat.sub_zero, Nat.zero_le, decide_true, Bool.true_and, Bool.and_true,
    show i < 160 by omega] using bit

/-- The status word is the PORT register (R13). -/
theorem portWord_eq {s : State} (places : withinPlaces s) (counted : ticketsCounted s) (p : Port) :
    portWord s p = portLayout s p := by
  have depth := (places.1 p).2
  have tickets := counted p
  have captured := Captures.capture_port (s := s) (p := p) (by omega) (by omega) (by omega)
  rw [Captures.captureOf_of_register (Registers.registerOf_port p), Captures.setWidth_eq_place] at captured
  refine place_inj (Eq.trans ?_ captured)
  simp [Register.content]

theorem replyWord_eq (r : Reply) : replyWord r = replyLayout r := by
  refine place_inj ?_
  obtain ⟨tag, outcome⟩ := r
  cases outcome with
  | granted i =>
    simp only [replyWord, replyLayout, Captures.place_append]
    simp [Captures.numField_eq 5 i.isLt, Captures.numField_eq 3 (show 1 < 2 ^ 3 by decide),
      Captures.payload_or_left_comm, BitVec.or_assoc]
  | refused c =>
    simp only [replyWord, replyLayout, Captures.place_append]
    simp [Captures.numField_eq 3 (show 2 < 2 ^ 3 by decide), Captures.payload_or_left_comm, BitVec.or_assoc]
  | full =>
    simp only [replyWord, replyLayout, Captures.place_append]
    simp [Captures.numField_eq 3 (show 3 < 2 ^ 3 by decide), BitVec.or_comm]
  | duplicate =>
    simp only [replyWord, replyLayout, Captures.place_append]
    simp [Captures.numField_eq 3 (show 4 < 2 ^ 3 by decide), BitVec.or_comm]

/-! ### The rows -/

/-- A well-shaped WRITE of an ACTIVE port waits for its data as ROUTED (R11). -/
theorem exec_acceptControlAccess_routed {s : State} {p : Port} {acc : Access}
    (wf : (Instr.acceptControlAccess p acc).wellFormed = true) (can : accepts s p acc.kind)
    (active : (s.port p).state = .active) (oldest : oldestUnsettled s) (write : acc.kind = .write)
    (shape : wellShaped acc = true) : exec (.acceptControlAccess p acc) s = .next (s.setPort p { s.port p with
      pending := (s.port p).pending ++ [entryAtAcceptance acc .routed] }) := by
  rw [exec_acceptControlAccess_accepted wf can, ← enterPending_write oldest write]
  simp [acceptControl, write, active, shape]

/-- Reads of the status word and of lease time. -/
theorem exec_acceptControlAccess_read {s : State} {p : Port} {acc : Access} {w : Word}
    (wf : (Instr.acceptControlAccess p acc).wellFormed = true) (can : accepts s p acc.kind) (oldest : oldestUnsettled s)
    (read : acc.kind = .read) (beats : acc.beats = 1) (word : acc.address.toNat = 4194297 ∧ w = portWord s p ∨
      acc.address.toNat = 4194298 ∧ w = s.clock.time) :
    exec (.acceptControlAccess p acc) s = .next (servedRead p acc (.served w) ⟨.ok, none, [w]⟩ s) := by
  have shape : wellShaped acc = true :=
    (wellShapedControlAccesses.2 acc (by omega)).2 (.inr (.inr ⟨read, by omega, by omega, beats⟩))
  have supplied : controlRead p acc s = (w, s) := by
    rcases word with ⟨address, rfl⟩ | ⟨address, rfl⟩
    · exact controlRead_status address
    · exact controlRead_time address
  rw [exec_acceptControlAccess_accepted wf can, acceptControl_of_read read shape, serveControl_eq read supplied oldest]

/-- REPLY_READ, once accepted, is the answered read of what the reply list supplies. -/
theorem exec_replyRead_accepted {s t : State} {p : Port} {w : Word} (can : accepts s p .read)
    (supplied : serveReply p s = (w, t)) (oldest : oldestUnsettled t) :
    exec (.replyRead p) s = .next (servedRead p replyAccess (.served w) ⟨.ok, none, [w]⟩ t) := by
  refine congrArg Host.Outcome.next ((if_pos ?_).trans ?_)
  · exact Admission.canAccept_of_accepts (acc := replyAccess) (by decide) can
  · exact serveControl_eq rfl ((controlRead_reply (by decide)).trans supplied) oldest

/-- REPLY_READ and the acceptance of its access are one event (log 1). -/
theorem exec_acceptControlAccess_replyAccess (p : Port) (s : State) :
    exec (.acceptControlAccess p replyAccess) s = exec (.replyRead p) s := by
  have control : replyAccess.isControl = true := by decide
  have shape : wellShaped replyAccess = true := by decide
  refine congrArg Host.Outcome.next ?_
  rw [control, Bool.and_true, acceptControl_of_read rfl shape]

/-- Settles O13: the routed write, the served reads, and the words they read. -/
theorem controlAccessIsRoutedOrServed : Obligations.ControlAccessIsRoutedOrServed := by
  refine ⟨fun p acc s => exec_acceptControlAccess_routed, fun p acc s w => exec_acceptControlAccess_read,
    fun p acc s can oldest same => ?_, fun s p places counted => portWord_eq places counted p, replyWord_eq⟩
  have replied : acc = replyAccess := same
  subst replied
  refine ⟨fun r rest replies => ?_, fun empty => ?_, exec_acceptControlAccess_replyAccess p s⟩
  · exact exec_replyRead_accepted can (by simp [serveReply, replies, setTickets]) oldest
  · exact exec_replyRead_accepted can (by simp [serveReply, empty]) oldest

end Sys2Proof.Acceptance
end

section
/-! PROOFS. Write data (spec/01 R5, R7): the beats that are late or unwanted, the beats before the last, and what the
last beat makes of the write. -/

namespace Sys2Proof.WriteData
open Sys2Proof.Machine Sys2Proof.Safety

theorem takesBeats_iff (s : State) (p : Port) :
    takesBeats s p = true ↔ running s ∧ (s.port p).state ≠ .inReset := by
  simp [takesBeats]

theorem exec_writeDataBeat_taken {s : State} {p : Port} {w : Word} (run : running s)
    (live : (s.port p).state ≠ .inReset) : exec (.writeDataBeat p w) s = .next (grantDecision (dataBeat p w s)) :=
  congrArg Host.Outcome.next (if_pos ((takesBeats_iff s p).2 ⟨run, live⟩))

theorem exec_writeDataBeat_dropped {s : State} {p : Port} {w : Word}
    (h : ¬ running s ∨ (s.port p).state = .inReset) : exec (.writeDataBeat p w) s = .next s := by
  refine congrArg Host.Outcome.next (if_neg fun takes => ?_)
  obtain ⟨run, live⟩ := (takesBeats_iff s p).1 takes
  exact h.elim (fun stands => stands run) live

/-! ## The cases of R5 -/

section Cases
variable {s : State} {p : Port} {w : Word}

theorem dataBeat_late (owed : 0 < (s.port p).discard) :
    dataBeat p w s = s.setPort p { s.port p with discard := (s.port p).discard - 1 } := if_pos owed

theorem dataBeat_unwanted (owed : (s.port p).discard = 0)
    (none_waits : ∀ e ∈ (s.port p).pending, e.progress ≠ .waitingData) : dataBeat p w s = s := by
  simp [dataBeat, owed, oldestWaiting_none none_waits]

/-- A beat goes to the oldest write that waits (R5). -/
theorem dataBeat_wanted {older younger : List Entry} {e : Entry} (owed : (s.port p).discard = 0)
    (parts : (s.port p).pending = older ++ e :: younger) (first : ∀ x ∈ older, x.progress ≠ .waitingData)
    (waits : e.progress = .waitingData) : dataBeat p w s = beatToEntry p w older.length e s := by
  simp [dataBeat, owed, parts, oldestWaiting_append first waits]

/-- An entry replaced by one that waits for data too makes no grant decision due. -/
theorem noGrantDue_waiting {older younger : List Entry} {e e' : Entry}
    (parts : (s.port p).pending = older ++ e :: younger) (waits : e'.progress = .waitingData) (quiet : noGrantDue s) :
    noGrantDue (s.setPort p { s.port p with pending := older ++ e' :: younger }) := by
  rcases quiet with quiet | quiet | quiet | ⟨engine, ports⟩
  · exact .inl quiet
  · exact .inr (.inl quiet)
  · exact .inr (.inr (.inl quiet))
  · refine .inr (.inr (.inr ⟨engine, fun q => ?_⟩))
    by_cases hq : q = p
    · subst hq
      have before := ports q
      rw [portCandidate, parts] at before
      rw [portCandidate, State.port_setPort_self]
      cases older with
      | nil => simp [waits]
      | cons x xs => exact before
    · rw [portCandidate, State.port_setPort_ne _ _ hq]
      exact ports q

/-- What a beat that is not the last leaves of its entry (R5). -/
theorem takeBeat_eq {e : Entry} {n : Nat} (received : e.received = some n) : e.takeBeat w = { e with
    received := some (n + 1)
    kept := match e.decision with
      | .admitted _ _ _ _ | .routed => e.kept ++ [w]
      | .allAborted | .refused _ | .served _ => e.kept } := by
  unfold Entry.takeBeat Decision.keepsData
  rw [received]
  cases e.decision <;> rfl

end Cases

/-- Settles O19, by the cases of R5. -/
theorem writeDataBeatCases : Obligations.WriteDataBeatCases := by
  refine ⟨fun p w s => ⟨fun run live quiet owed => ?_, fun run live quiet none_owed unwanted => ?_,
    exec_writeDataBeat_dropped⟩, fun p w s older younger e n run live quiet owed parts first waits received more => ?_⟩
  · rw [exec_writeDataBeat_taken run live, dataBeat_late owed]
    refine congrArg Host.Outcome.next (grantDecision_of_noGrantDue (Bursts.noGrantDue_of_stage ?_ quiet))
    exact Bursts.stage_setPort p rfl
  · rw [exec_writeDataBeat_taken run live, dataBeat_unwanted none_owed unwanted, grantDecision_of_noGrantDue quiet]
  · have inner : e.received.getD 0 + 1 < e.access.beats := by rw [received]; exact more
    have still : (e.takeBeat w).progress = .waitingData := waits
    rw [exec_writeDataBeat_taken run live, dataBeat_wanted owed parts first waits, beatToEntry, if_pos inner,
      setEntry, parts, List.set_append_right _ _ (Nat.le_refl _), Nat.sub_self, List.set_cons_zero,
      grantDecision_of_noGrantDue (noGrantDue_waiting parts still quiet)]
    exact congrArg (fun x : Entry => Host.Outcome.next
      (s.setPort p { s.port p with pending := older ++ x :: younger })) (takeBeat_eq received)

/-! ## The last beat (R7) -/

section LastBeat
variable {s : State} {p : Port} {q : Slot} {n : Nat} {w : Word}

/-- The slot's entry replaced and settled, and then what leaves. -/
theorem depart_settle_entry (standing : stands s p q) (e : Entry) (r : Response) :
    depart p (setEntry p q.older.length (e.settle r) s) = answeredAt p { q with entry := e } r s := by
  have settled := depart_settle (stands_entry standing e) r
  rw [Requests.setEntry_setEntry] at settled
  rw [settled, setEntry_eq standing, Requests.answeredAt_setPending]

/-- An unsettled entry in the place of the slot's keeps its port from answering. -/
theorem depart_setEntry_unsettled (standing : stands s p q) {e : Entry} (unsettled : e.progress ≠ .settled) :
    depart p (setEntry p q.older.length e s) =
      s.setPort p { s.port p with pending := q.older ++ e :: q.younger } := by
  rw [setEntry_eq standing]
  refine depart_of_unsettled fun x xs hx => ?_
  rw [State.port_setPort_self] at hx
  cases older : q.older with
  | nil =>
    rw [older] at hx
    cases hx
    exact unsettled
  | cons y ys =>
    rw [older] at hx
    cases hx
    exact standing.2 _ (by rw [older]; exact List.mem_cons_self)

/-- The last beat of a data write: the entry completed, and then what leaves. -/
theorem exec_writeDataBeat_last (run : running s) (live : (s.port p).state ≠ .inReset) (owed : (s.port p).discard = 0)
    (standing : stands s p q) (waits : oldestWaits q) (received : q.entry.received = some n)
    (last : n + 1 = q.entry.access.beats) (data : q.entry.decision ≠ .routed) : exec (.writeDataBeat p w) s =
      .next (grantDecision (depart p (setEntry p q.older.length (q.entry.takeBeat w).dataComplete s))) := by
  have complete : ¬ q.entry.received.getD 0 + 1 < q.entry.access.beats := by simp [received, last]
  rw [exec_writeDataBeat_taken run live, dataBeat_wanted owed standing.1 waits.2 waits.1, beatToEntry,
    if_neg complete]
  cases decision : q.entry.decision with
  | routed => exact absurd decision data
  | admitted addrs lanes trimmed bound => rfl
  | allAborted => rfl
  | refused reason => rfl
  | served w => rfl

end LastBeat

/-- Settles O20, by the decision of the write. -/
theorem theLastBeatMovesTheWriteOn : Obligations.TheLastBeatMovesTheWriteOn := by
  intro p w s q got n run live owed standing waits received last write same
  have done (data : q.entry.decision ≠ .routed) :=
    exec_writeDataBeat_last (w := w) run live owed standing waits received last data
  have taken := takeBeat_eq (w := w) received
  refine ⟨fun addrs lanes trimmed bound admitted => ?_, fun aborted => ?_, fun reason refused => ?_⟩
  · have ready : (q.entry.takeBeat w).dataComplete = { q.entry with
        received := some (n + 1), kept := q.entry.kept ++ [w], deadlineCount := none, progress := .ready } := by
      simp [taken, Entry.dataComplete, admitted]
    rw [done (by simp [admitted]), ready, depart_setEntry_unsettled standing (by simp)]
  · have settled : (q.entry.takeBeat w).dataComplete = got.entry.settle ⟨.trimmed, none, []⟩ := by
      simp [taken, Entry.dataComplete, aborted, same, trimmedResponse]
    rw [done (by simp [aborted]), settled, depart_settle_entry standing, same]
  · have settled : (q.entry.takeBeat w).dataComplete = got.entry.settle ⟨.refused, some reason, []⟩ := by
      simp [taken, Entry.dataComplete, refused, same, Requests.refusedResponse_write reason write]
    rw [done (by simp [refused]), settled, depart_settle_entry standing, same]

end Sys2Proof.WriteData
end

section
/-! PROOFS. Control writes at the windows, the scope stacks and the port (spec/02 R33, R34; spec/04 R83 to R85; spec/06
R110 to R112; spec/09 R156): what each owner answers, and when its row changes nothing (log 1). -/

namespace Sys2Proof.ControlWrites
open Sys2Proof.Machine Sys2Proof.Safety
open Sys2Proof.Requests (carriesOut_of_finishRouted finishRouted_of_ok finishRouted_of_refused)

/-! ## Sets of ports -/

/-- A set of ports is empty where it holds none of the four. -/
theorem portSet_eq_zero_iff (ps : PortSet) : ps = 0 ↔ ∀ p, hasPort ps p = false := by
  have bits : ∀ ps : PortSet, hasPort ps .a = false ∧ hasPort ps .b = false ∧ hasPort ps .c = false ∧
      hasPort ps .d = false → ps = 0 := by decide
  refine ⟨fun h p => by rw [h]; cases p <;> rfl, fun h => bits ps ⟨h .a, h .b, h .c, h .d⟩⟩

theorem hasPort_withoutPort (ps : PortSet) (p r : Port) :
    hasPort (withoutPort ps p) r = (hasPort ps r && r != p) := by
  have bits : ∀ p r : Port, ∀ ps : PortSet, hasPort (withoutPort ps p) r = (hasPort ps r && r != p) := by
    intro p r
    cases p <;> cases r <;> decide
  exact bits p r ps

/-- Without port `p` no holder is left where every other port is none. -/
theorem withoutPort_eq_zero_iff (ps : PortSet) (p : Port) :
    withoutPort ps p = 0 ↔ ∀ r, r ≠ p → hasPort ps r = false := by
  rw [portSet_eq_zero_iff]
  refine forall_congr' fun r => ?_
  rw [hasPort_withoutPort]
  by_cases hr : r = p <;> simp [hr]

/-! ## An owner's answer, as the event it makes -/

section Answer
variable {s t : State} {p : Port} {n : Nat} {q : Slot} {w : Word} {c : Instr}

theorem carriesOut_refused {reason : Reason} {window : Option WinIdx} (due : lastBeatDue s p n q [])
    (row : exec c s = .next (controlWrite (ownerOf n) n p w s))
    (answer : ownerOf n p [w] s = (s, some (reason, window))) :
    carriesOut c p w s (refusedByOwner p q w reason window s) :=
  carriesOut_of_finishRouted due row (finishRouted_of_refused due answer)

theorem carriesOut_ok (due : lastBeatDue s p n q []) (row : exec c s = .next (controlWrite (ownerOf n) n p w s))
    (answer : ownerOf n p [w] s = (t, none)) (ports : (t.port p).pending = (s.port p).pending) :
    carriesOut c p w s (carriedOut p q w t) :=
  carriesOut_of_finishRouted due row (finishRouted_of_ok due answer ports)

end Answer

/-! ## RENEW (R83 to R85) -/

section Renew
variable {s : State} {p : Port} {w : Word} {i : WinIdx} {tag : Tag}

theorem carryRenew_of_outside (h : 32 ≤ (controlIndex w).toNat) :
    carryRenew p [w] s = (s, some (.noWindow, none)) := by
  simp [carryRenew, windowOfIndex_of_le h, ownerRefused]

theorem carryRenew_of_window (h : (controlIndex w).toNat = i.val) :
    carryRenew p [w] s = renewByPort p i (renewTag w) s := by
  simp [carryRenew, windowOfIndex_of_eq h]

theorem renewByPort_of_stranger (h : ¬ holdsGrant (s.win i) p) :
    renewByPort p i tag s = (s, some (.noWindow, some i)) := by
  have stranger : (s.win i).grantTo p = false := by
    rw [← Bool.not_eq_true, Admission.grantTo_iff]
    exact h
  simp [renewByPort, stranger, ownerRefused]

/-- A holder's RENEW is answered by the phase. -/
theorem renewByPort_of_holder (h : holdsGrant (s.win i) p) : renewByPort p i tag s = match (s.win i).phase with
    | .arming => (s, some (.notYet, some i))
    | .lapsed => (s, some (.lapsed, some i))
    | .draining | .scrubWait | .scrubbing => (s, some (.retiring, some i))
    | .held | .taper =>
      if (s.win i).renewBudget = 0 then makeExtend p i tag s
      else ownerOk (renewWindow i (spentBudget (s.win i).renewBudget) s)
    | .free => (s, some (.noWindow, some i)) := by
  have holder := (Admission.grantTo_iff (s.win i) p).2 h
  simp only [renewByPort, holder]
  rfl

theorem renewByPort_of_inForce (h : holdsGrant (s.win i) p)
    (inForce : (s.win i).phase = .held ∨ (s.win i).phase = .taper) : renewByPort p i tag s =
      if (s.win i).renewBudget = 0 then makeExtend p i tag s
      else ownerOk (renewWindow i (spentBudget (s.win i).renewBudget) s) := by
  rw [renewByPort_of_holder h]
  rcases inForce with phase | phase <;> rw [phase]

theorem makeExtend_of_noTicket (h : s.tickets.get p = 0) :
    makeExtend p i tag s = (s, some (.noTicket, some i)) := by
  simp [makeExtend, h, ownerRefused]

theorem makeExtend_of_ticket (h : 0 < s.tickets.get p) :
    makeExtend p i tag s = (requestArrival ⟨p, tag, .extend i, s.clock.time⟩ s, none) := by
  simp [makeExtend, Nat.ne_of_gt h, ownerOk]

end Renew

/-- Settles O23, by the index, the holder, the phase and the budget. -/
theorem portRenew : Obligations.PortRenew := by
  intro p q w s due
  refine ⟨fun outside => carriesOut_refused due rfl (carryRenew_of_outside outside), fun i index => ?_⟩
  have named := carryRenew_of_window (s := s) (p := p) index
  refine ⟨fun stranger => carriesOut_refused due rfl (named.trans (renewByPort_of_stranger stranger)),
    fun holder => ?_⟩
  have byPhase := named.trans (renewByPort_of_holder holder)
  refine ⟨fun phase => ?_, fun phase => ?_, fun phase => ?_, fun inForce => ?_⟩
  · exact carriesOut_refused due rfl (by rw [phase] at byPhase; exact byPhase)
  · exact carriesOut_refused due rfl (by rw [phase] at byPhase; exact byPhase)
  · refine carriesOut_refused due rfl ?_
    rcases phase with phase | phase | phase <;> rw [phase] at byPhase <;> exact byPhase
  · have byBudget := named.trans (renewByPort_of_inForce holder inForce)
    have extends_ (spent : (s.win i).renewBudget = 0) := byBudget.trans (if_pos spent)
    refine ⟨fun budget => ?_, fun spent noTicket => ?_, fun spent ticket used => ?_, fun spent ticket free places => ?_⟩
    · refine carriesOut_ok due rfl ((byBudget.trans (if_neg budget)).trans ?_) rfl
      rw [renewWindow_eq]
      rfl
    · exact carriesOut_refused due rfl ((extends_ spent).trans (makeExtend_of_noTicket noTicket))
    · refine carriesOut_ok due rfl ((extends_ spent).trans ((makeExtend_of_ticket ticket).trans ?_)) rfl
      rw [Requests.requestArrival_of_tagInUse used]
      rfl
    · refine carriesOut_ok due rfl ((extends_ spent).trans ((makeExtend_of_ticket ticket).trans ?_)) rfl
      rw [Requests.requestArrival_of_tagFree free places]
      rfl

/-! ## RELEASE (R33, R34) -/

section Release
variable {s : State} {p : Port} {w : Word} {i : WinIdx}

theorem carryRelease_of_outside (h : 32 ≤ (controlIndex w).toNat) :
    carryRelease p [w] s = (s, some (.noWindow, none)) := by
  simp [carryRelease, windowOfIndex_of_le h, ownerRefused]

theorem carryRelease_of_window (h : (controlIndex w).toNat = i.val) :
    carryRelease p [w] s = releaseByPort p i s := by
  simp [carryRelease, windowOfIndex_of_eq h]

theorem releaseByPort_of_stranger (h : ¬ holdsGrant (s.win i) p) :
    releaseByPort p i s = (s, some (.noWindow, some i)) := by
  have stranger : (s.win i).grantTo p = false := by
    rw [← Bool.not_eq_true, Admission.grantTo_iff]
    exact h
  simp [releaseByPort, stranger, ownerRefused]

theorem retiring_iff (w : Window) :
    w.retiring = true ↔ w.phase = .draining ∨ w.phase = .scrubWait ∨ w.phase = .scrubbing := by
  simp [Window.retiring, or_assoc]

theorem releaseByPort_of_retiring (h : holdsGrant (s.win i) p) (retiring : (s.win i).retiring = true) :
    releaseByPort p i s = (s, some (.retiring, some i)) := by
  simp [releaseByPort, (Admission.grantTo_iff _ _).2 h, retiring, ownerRefused]

theorem releaseByPort_of_standing (h : holdsGrant (s.win i) p) (standing : (s.win i).retiring = false) :
    releaseByPort p i s = (releaseHold p i s, none) := by
  simp [releaseByPort, (Admission.grantTo_iff _ _).2 h, standing, ownerOk]

/-- The last holder's release retires the window. -/
theorem releaseHold_of_last (hm : engineMatches s) (last : ∀ r, r ≠ p → hasPort (s.win i).ports r = false) :
    releaseHold p i s = retired i s := by
  rw [← enterDraining_eq i s hm]
  exact if_pos ((withoutPort_eq_zero_iff _ _).2 last)

/-- Another holder's release leaves the window: the port and its frames go (R34, R113). -/
theorem releaseHold_of_others {r : Port} (other : r ≠ p) (holds : hasPort (s.win i).ports r = true) :
    releaseHold p i s = ({ s with scopes := s.scopes.set p ((s.scopes.get p).map (orphanedFrame i)) } : State).setWin i
      { s.win i with
        ports := (s.win i).ports &&& ~~~(portSetOf p)
        scopeRefs := (s.win i).scopeRefs - (s.scopes.get p).countP (countsFor i) } := by
  have others : ¬ withoutPort (s.win i).ports p = 0 := by
    rw [withoutPort_eq_zero_iff]
    intro none_holds
    simp [none_holds r other] at holds
  refine (if_neg others).trans ?_
  simp only [orphanPort, orphanOn_eq, liveOn_eq, State.win_setWin_self, State.setWin_setWin, withoutPort]

theorem port_retired (i : WinIdx) (s : State) : (retired i s).port p = s.port p := by
  unfold retired
  split
  · rfl
  · rw [Resets.drained_eq]; rfl

end Release

/-- Settles O24, by the index, the holder, the phase and the other holders. -/
theorem release : Obligations.Release := by
  intro p q w s due hm
  refine ⟨fun outside => carriesOut_refused due rfl (carryRelease_of_outside outside), fun i index => ?_⟩
  have named := carryRelease_of_window (s := s) (p := p) index
  refine ⟨fun stranger => carriesOut_refused due rfl (named.trans (releaseByPort_of_stranger stranger)),
    fun holder => ⟨fun retiring => ?_, fun phase => ?_⟩⟩
  · exact carriesOut_refused due rfl
      (named.trans (releaseByPort_of_retiring holder ((retiring_iff _).2 retiring)))
  · have standing : (s.win i).retiring = false := by
      rw [← Bool.not_eq_true, retiring_iff]
      rcases phase with phase | phase | phase | phase <;> simp [phase]
    have carried := named.trans (releaseByPort_of_standing holder standing)
    refine ⟨fun last => ?_, fun r other holds => ?_⟩
    · rw [releaseHold_of_last hm last] at carried
      exact carriesOut_ok due rfl carried (by rw [port_retired])
    · rw [releaseHold_of_others other holds] at carried
      exact carriesOut_ok due rfl carried rfl

/-! ## SCOPE_PUSH (R110, R111) -/

section Push
variable {s : State} {p : Port} {w : Word} {i : WinIdx}

theorem pushWidens_iff (w : Window) (ceiling : Rights) (top : Frame) :
    pushWidens w ceiling top = true ↔ ¬ narrower w ceiling top := by
  simp only [pushWidens, rangeWithin, Window.size, classSize, narrower]
  grind

theorem pushBad_none (ceiling : Rights) : pushBad p ceiling none s = true := by simp [pushBad]

theorem pushBad_some_iff (ceiling : Rights) : pushBad p ceiling (some i) s = true ↔
    ceiling = 0 ∨ ¬ (holdsGrant (s.win i) p ∧ ((s.win i).phase = .held ∨ (s.win i).phase = .taper)) := by
  rw [pushBad, ← Admission.grantTo_iff, Bool.or_eq_true, beq_iff_eq, Bool.not_eq_true', ← Bool.not_eq_true]
  simp [Window.inForce]

/-- Case 1 of R110. -/
theorem carryPush_of_full (full : 8 ≤ (s.scopes.get p).length) :
    carryPush p [w] s = (s, some (.stackLimit, windowOfIndex (controlIndex w))) := if_pos full

/-- Case 2 of R110. -/
theorem carryPush_of_bad (room : (s.scopes.get p).length < 8)
    (bad : pushBad p (pushCeiling w) (windowOfIndex (controlIndex w)) s = true) :
    carryPush p [w] s = (s, some (.scopeBad, windowOfIndex (controlIndex w))) :=
  (if_neg (Nat.not_le_of_lt room)).trans (if_pos bad)

/-- Cases 3 to 5 of R110. -/
theorem carryPush_of_good (room : (s.scopes.get p).length < 8) (index : (controlIndex w).toNat = i.val)
    (good : ¬ pushBad p (pushCeiling w) (some i) s = true) :
    carryPush p [w] s = pushOver p i (pushCeiling w) s := by
  have named := windowOfIndex_of_eq index
  have places : ¬ Config.stackPlaces ≤ (s.scopes.get p).length := Nat.not_le_of_lt room
  simp only [carryPush, List.getD_cons_zero, named, if_neg places, if_neg good]

theorem pushOver_of_orphan {ceiling : Rights} {f : Frame} {fs : List Frame} (stack : s.scopes.get p = f :: fs)
    (orphan : f.orphan = true) : pushOver p i ceiling s = (s, some (.scopeLost, some i)) := by
  simp [pushOver, stack, orphan, ownerRefused]

theorem pushOver_of_wider {ceiling : Rights} {f : Frame} {fs : List Frame} (stack : s.scopes.get p = f :: fs)
    (live : f.orphan = false) (wider : ¬ narrower (s.win i) ceiling f) :
    pushOver p i ceiling s = (s, some (.scopeWiden, some i)) := by
  simp [pushOver, stack, live, (pushWidens_iff _ _ _).2 wider, ownerRefused]

theorem pushOver_of_narrower {ceiling : Rights}
    (fits : ∀ f fs, s.scopes.get p = f :: fs → f.orphan = false ∧ narrower (s.win i) ceiling f) :
    pushOver p i ceiling s =
      (pushed p ⟨i, ceiling, (s.win i).portBase, (s.win i).sizeClass, false⟩ s, none) := by
  unfold pushOver
  cases stack : s.scopes.get p with
  | nil => rfl
  | cons f fs =>
    obtain ⟨live, narrow⟩ := fits f fs stack
    have inside : ¬ pushWidens (s.win i) ceiling f = true := fun wider => (pushWidens_iff _ _ _).1 wider narrow
    simp only [live, if_neg inside]
    rfl

end Push

/-- Settles O25, by the cases of R110 in their order. -/
theorem scopePush : Obligations.ScopePush := by
  intro p q w s due
  have beyond (outside : 32 ≤ (controlIndex w).toNat) := windowOfIndex_of_le outside
  refine ⟨fun full => ⟨fun outside => ?_, fun i index => ?_⟩, fun room => ⟨fun outside => ?_, fun i index =>
    ⟨fun bad => ?_, fun ceiling holder inForce => ?_⟩⟩⟩
  · exact carriesOut_refused due rfl ((carryPush_of_full full).trans (by rw [beyond outside]))
  · have named : windowOfIndex (controlIndex w) = some i := windowOfIndex_of_eq index
    exact carriesOut_refused due rfl ((carryPush_of_full full).trans (by rw [named]))
  · exact carriesOut_refused due rfl
      ((carryPush_of_bad room (by rw [beyond outside]; exact pushBad_none _)).trans (by rw [beyond outside]))
  · have named : windowOfIndex (controlIndex w) = some i := windowOfIndex_of_eq index
    exact carriesOut_refused due rfl
      ((carryPush_of_bad room (by rw [named]; exact (pushBad_some_iff _).2 bad)).trans (by rw [named]))
  · have good : ¬ pushBad p (pushCeiling w) (some i) s = true := fun bad =>
      ((pushBad_some_iff _).1 bad).elim ceiling fun outside => outside ⟨holder, inForce⟩
    have reached := carryPush_of_good room index good
    refine ⟨fun f fs stack orphan => ?_, fun f fs stack live wider => ?_, fun fits => ?_⟩
    · exact carriesOut_refused due rfl (reached.trans (pushOver_of_orphan stack orphan))
    · exact carriesOut_refused due rfl (reached.trans (pushOver_of_wider stack live wider))
    · exact carriesOut_ok due rfl (reached.trans (pushOver_of_narrower fits)) rfl

/-! ## SCOPE_POP and CLEAR_FLAGS (R112, R156) -/

theorem carryPop_of_empty {s : State} {p : Port} (words : List Word) (stack : s.scopes.get p = []) :
    carryPop p words s = (s, some (.stackEmpty, none)) := by
  simp [carryPop, stack, ownerRefused]

theorem carryPop_of_cons {s : State} {p : Port} {f : Frame} {fs : List Frame} (words : List Word)
    (stack : s.scopes.get p = f :: fs) : carryPop p words s =
      (if f.orphan then { s with scopes := s.scopes.set p fs }
        else lowerRef f.window { s with scopes := s.scopes.set p fs }, none) := by
  simp [carryPop, stack, ownerOk]

/-- Settles O26: the top frame by its orphan mark, and the flags of the mask. -/
theorem scopePopAndClearFlags : Obligations.ScopePopAndClearFlags := by
  refine ⟨fun p q w s due => ⟨fun empty => ?_, fun f fs stack => ⟨fun orphan => ?_, fun live => ?_⟩⟩,
    fun p q w s due => ?_⟩
  · exact carriesOut_refused due rfl (carryPop_of_empty [w] empty)
  · exact carriesOut_ok due rfl ((carryPop_of_cons [w] stack).trans (by rw [if_pos orphan])) rfl
  · exact carriesOut_ok due rfl ((carryPop_of_cons [w] stack).trans (by rw [if_neg (by simp [live])]; rfl)) rfl
  · exact carriesOut_ok due rfl rfl (by simp)

/-! ## Rows whose beat is not due (log 1) -/

/-- What keeps the row of aperture word `n` from being due. -/
def NotDue (s : State) (p : Port) (n : Nat) : Prop :=
  ¬ running s ∨ (s.port p).state = .inReset ∨ 0 < (s.port p).discard ∨
    (∀ e ∈ (s.port p).pending, e.progress ≠ .waitingData) ∨
    ∃ q, stands s p q ∧ oldestWaits q ∧
      (q.entry.decision ≠ .routed ∨
        4194288 ≤ q.entry.access.address.toNat ∧ q.entry.access.address.toNat ≠ 4194288 + n ∨
        ∃ n, q.entry.received = some n ∧ n + 1 ≠ q.entry.access.beats)

/-- A beat is due only at a port that takes beats, for the oldest write that waits. -/
theorem controlBeatDue_eq_none {s : State} {p : Port} {n : Nat} (h : NotDue s p n) : controlBeatDue s p n = none := by
  rcases h with stopped | reset | owed | unwanted | ⟨q, standing, ⟨waits, first⟩, other⟩
  · have takes : takesBeats s p = false := by
      rw [← Bool.not_eq_true, WriteData.takesBeats_iff]
      exact fun h => stopped h.1
    simp [controlBeatDue, routedBeatDue, takes]
  · have takes : takesBeats s p = false := by
      rw [← Bool.not_eq_true, WriteData.takesBeats_iff]
      exact fun h => h.2 reset
    simp [controlBeatDue, routedBeatDue, takes]
  · simp [controlBeatDue, routedBeatDue, Nat.ne_of_gt owed]
  · simp [controlBeatDue, routedBeatDue, oldestWaiting_none unwanted]
  · have found := oldestWaiting_append (younger := q.younger) first waits
    rw [← standing.1] at found
    by_cases due : (q.entry.decision == .routed && q.entry.received.getD 0 + 1 == q.entry.access.beats) = true
    · obtain ⟨routed, last⟩ : q.entry.decision = .routed ∧ q.entry.received.getD 0 + 1 = q.entry.access.beats := by
        simpa using due
      have elsewhere : apertureWordOf q.entry.access ≠ n := by
        have word : apertureWordOf q.entry.access = q.entry.access.address.toNat - 4194288 := rfl
        rcases other with data | ⟨inside, address⟩ | ⟨k, received, early⟩
        · exact absurd routed data
        · omega
        · rw [received] at last
          exact absurd last early
      simp [controlBeatDue, routedBeatDue, found, due, elsewhere]
    · simp [controlBeatDue, routedBeatDue, found, due]

/-- The row of aperture word `n` is the control write there. -/
theorem exec_controlRow {s : State} {p : Port} {w : Word} {row : Nat × Instr}
    (h : row ∈ [(0, Instr.newRequest p w), (2, .portRenew p w), (3, .withdraw p w), (4, .release p w),
      (5, .scopePush p w), (6, .scopePop p w), (7, .portClearFlags p w)]) :
    exec row.2 s = .next (controlWrite (ownerOf row.1) row.1 p w s) := by
  simp only [List.mem_cons, List.not_mem_nil, or_false] at h
  rcases h with rfl | rfl | rfl | rfl | rfl | rfl | rfl <;> rfl

/-- Settles O27: no row finds its beat due. -/
theorem controlWriteRowsNeedTheirBeat : Obligations.ControlWriteRowsNeedTheirBeat := by
  intro p w s row mem notDue
  rw [exec_controlRow mem, controlWrite, controlBeatDue_eq_none notDue]

end Sys2Proof.ControlWrites
end

section
/-! PROOFS. Creations and actions (spec/02 R23 to R36; spec/04 R83, R86; spec/06 R117; spec/08 R142, R143; spec/09 R153,
R156, R158): the checks of a creation in their order, the action record, and what each action leaves. -/

namespace Sys2Proof.Actions
open Sys2Proof.Machine Sys2Proof.Safety

/-! ## The checks of a creation (R23 to R25) -/

/-- Two sets of ports share one. -/
theorem portSets_meet_iff (ps qs : PortSet) :
    (ps &&& qs != 0) = true ↔ ∃ p, hasPort ps p = true ∧ hasPort qs p = true := by
  rw [bne_iff_ne, Ne, ControlWrites.portSet_eq_zero_iff, not_forall]
  exact exists_congr fun p => by simp [hasPort]

theorem rangesOverlap_iff (a m b n : Nat) : rangesOverlap a m b n = true ↔ a < b + n ∧ b < a + m := by
  rw [rangesOverlap, Bool.and_eq_true, decide_eq_true_eq, decide_eq_true_eq]

/-- An occupied GRANT shares a port and a port word with a set of ports and a range (R24). -/
theorem collides_iff (w : Window) (ports : PortSet) (base size : Nat) : w.collides ports base size = true ↔
    ∃ p, holdsGrant w p ∧ hasPort ports p = true ∧ w.portBase.toNat < base + size ∧
      base < w.portBase.toNat + 2 ^ w.sizeClass.toNat := by
  rw [Window.collides, Bool.and_eq_true, Bool.and_eq_true, Bool.and_eq_true, portSets_meet_iff, rangesOverlap_iff,
    Window.occupied, bne_iff_ne, beq_iff_eq]
  constructor
  · rintro ⟨⟨⟨occupied, grant⟩, p, holds, shared⟩, left, right⟩
    exact ⟨p, ⟨occupied, grant, holds⟩, shared, left, right⟩
  · rintro ⟨p, ⟨occupied, grant, holds⟩, shared, left, right⟩
    exact ⟨⟨⟨occupied, grant⟩, p, holds, shared⟩, left, right⟩

/-- An occupied GRANT shares an SRAM word with a range, and one of the two is to be scrubbed (R25). -/
theorem blocksTarget_iff (w : Window) (scrub : Bool) (base size : Nat) : w.blocksTarget scrub base size = true ↔
    w.phase ≠ .free ∧ w.kind = .grant ∧ (w.target.getD 0).toNat < base + size ∧
      base < (w.target.getD 0).toNat + 2 ^ w.sizeClass.toNat ∧ (scrub = true ∨ w.scrub = true) := by
  rw [Window.blocksTarget, Bool.and_eq_true, Bool.and_eq_true, Bool.and_eq_true, rangesOverlap_iff,
    Window.occupied, bne_iff_ne, beq_iff_eq, Bool.or_eq_true, and_assoc, and_assoc, and_assoc]
  rfl

theorem badGeometry_iff (n : NewWindow) : badGeometry n = true ↔ n.ports = 0 ∨ n.sizeClass.toNat < 4 ∨
    20 < n.sizeClass.toNat ∨ n.portBase.toNat % 2 ^ n.sizeClass.toNat ≠ 0 ∨
    (n.kind = .grant ∧ n.target.toNat % 2 ^ n.sizeClass.toNat ≠ 0) := by
  simp only [badGeometry, classSize, Bool.or_eq_true, Bool.and_eq_true, beq_iff_eq, bne_iff_ne, decide_eq_true_eq,
    or_assoc]

theorem badEnvelope_iff (n : NewWindow) : badEnvelope n = true ↔
    n.hold = 0 ∨ (n.kind = .fence ∧ n.taper ≠ 0) ∨ (n.kind = .fence ∧ n.scrub = true) := by
  simp only [badEnvelope, Bool.or_eq_true, Bool.and_eq_true, beq_iff_eq, bne_iff_ne, and_or_left]

theorem targetOutside_iff (n : NewWindow) :
    targetOutside n = true ↔ n.kind = .grant ∧ 1048576 < n.target.toNat + 2 ^ n.sizeClass.toNat := by
  rw [targetOutside, Bool.and_eq_true, beq_iff_eq, decide_eq_true_eq]
  rfl

theorem overlaps_iff (n : NewWindow) (s : State) : overlaps n s = true ↔ n.kind = .grant ∧
    ∃ (i : WinIdx) (p : Port), holdsGrant (s.win i) p ∧ hasPort n.ports p = true ∧
      (s.win i).portBase.toNat < n.portBase.toNat + 2 ^ n.sizeClass.toNat ∧
      n.portBase.toNat < (s.win i).portBase.toNat + 2 ^ (s.win i).sizeClass.toNat := by
  simp only [overlaps, Bool.and_eq_true, beq_iff_eq, List.any_eq_true, collides_iff, classSize, allWindows,
    List.mem_finRange, true_and]

theorem targetBusy_iff (n : NewWindow) (s : State) : targetBusy n s = true ↔ n.kind = .grant ∧
    ∃ i : WinIdx, (s.win i).phase ≠ .free ∧ (s.win i).kind = .grant ∧
      ((s.win i).target.getD 0).toNat < n.target.toNat + 2 ^ n.sizeClass.toNat ∧
      n.target.toNat < ((s.win i).target.getD 0).toNat + 2 ^ (s.win i).sizeClass.toNat ∧
      (n.scrub = true ∨ (s.win i).scrub = true) := by
  simp only [targetBusy, Bool.and_eq_true, beq_iff_eq, List.any_eq_true, blocksTarget_iff, classSize, allWindows,
    List.mem_finRange, true_and]

/-- Settles O44: each check is its condition, and the first that fails decides. -/
theorem creationChecksInOrder : Obligations.CreationChecksInOrder := by
  intro n s geometry envelope range overlap busy g e r o b
  rw [← badGeometry_iff] at g
  rw [← badEnvelope_iff] at e
  rw [← targetOutside_iff] at r
  rw [← overlaps_iff n s] at o
  rw [← targetBusy_iff n s] at b
  rw [g, e, r, o, b, creationFault]
  refine ⟨fun h => if_pos h, fun g e => ?_, fun g e r => ?_, fun g e r o => ?_, fun g e r o b => ?_, fun g e r o b => ?_⟩
  · rw [if_neg g, if_pos e]
  · rw [if_neg g, if_neg e, if_pos r]
  · rw [if_neg g, if_neg e, if_neg r, if_pos o]
  · rw [if_neg g, if_neg e, if_neg r, if_neg o, if_pos b]
  · rw [if_neg g, if_neg e, if_neg r, if_neg o, if_neg b]

/-! ## The action record (spec/11 section 11.4.7) -/

theorem portOfCode_eq : ∀ c : BitVec 2, portOfCode c = ([Port.a, .b, .c, .d][c.toNat]?).getD .a := by decide

theorem kindOfBit_eq (b : Bool) : kindOfBit b = if b = true then .fence else .grant := by cases b <;> rfl

theorem policyOfBit_eq (b : Bool) : policyOfBit b = if b = true then .trim else .strict := by cases b <;> rfl

/-- A field of word `k` is a field of the record. -/
theorem payloadWord_field (x : Payload) (k : Nat) {start len : Nat} (within : start + len ≤ 32) :
    (payloadWord 4 k x).extractLsb' start len = x.extractLsb' (32 * (4 - 1 - k) + start) len :=
  Registers.extractLsb'_extractLsb' x within

theorem payloadWord_bit (x : Payload) (k : Nat) {b : Nat} (within : b < 32) :
    (payloadWord 4 k x).getLsbD b = x.getLsbD (32 * (4 - 1 - k) + b) := by
  simp [payloadWord, within]

theorem actionRecordOf_eq (x : Payload) : actionRecordOf x = recordLayout x := by
  simp only [actionRecordOf, recordLayout, payloadWord_field _ _ (show 27 + 5 ≤ 32 by decide),
    payloadWord_field _ _ (show 21 + 6 ≤ 32 by decide), payloadWord_field _ _ (show 19 + 2 ≤ 32 by decide),
    payloadWord_field _ _ (show 15 + 4 ≤ 32 by decide), payloadWord_field _ _ (show 11 + 4 ≤ 32 by decide),
    payloadWord_field _ _ (show 7 + 4 ≤ 32 by decide), payloadWord_field _ _ (show 2 + 5 ≤ 32 by decide),
    payloadWord_field _ _ (show 27 + 4 ≤ 32 by decide), payloadWord_field _ _ (show 5 + 22 ≤ 32 by decide),
    payloadWord_field _ _ (show 0 + 5 ≤ 32 by decide), payloadWord_field _ _ (show 10 + 22 ≤ 32 by decide),
    payloadWord_field _ _ (show 8 + 2 ≤ 32 by decide), payloadWord_field _ _ (show 4 + 4 ≤ 32 by decide),
    payloadWord_field _ _ (show 28 + 4 ≤ 32 by decide), payloadWord_field _ _ (show 24 + 4 ≤ 32 by decide),
    payloadWord_field _ _ (show 20 + 4 ≤ 32 by decide), payloadWord_field _ _ (show 18 + 2 ≤ 32 by decide),
    payloadWord_bit _ _ (show 31 < 32 by decide), payloadWord_bit _ _ (show 3 < 32 by decide),
    payloadWord_bit _ _ (show 2 < 32 by decide), payloadWord_bit _ _ (show 1 < 32 by decide),
    portOfCode_eq, kindOfBit_eq, policyOfBit_eq]

/-! ## An action by what it leaves -/

section Action
variable {s t : State} {c : Instr} {code : BitVec 5} {act : ActionRecord → State → ActionOut} {result : ResultCode}
  {window : Option WinIdx}

/-- The row of an action whose frame stands. -/
theorem exec_action (row : exec c s = .next (actionFrame code act s)) (stands : actionStands s code)
    (out : act (record s) (frameDone s) = (t, result, window)) :
    exec c s = .next (withResult result window s.clock.time t) := by
  rw [row, actionFrame_of_out stands out]

/-- A failed action leaves the closed frame and its code. -/
theorem exec_action_failed (row : exec c s = .next (actionFrame code act s)) (stands : actionStands s code)
    (out : act (record s) (frameDone s) = actionFailed (frameDone s) result window) :
    exec c s = .next (actionFails s result window) := exec_action row stands out

end Action

/-! ## CREATE (R26, R27) -/

section Creation
variable {n : NewWindow} {s : State}

theorem createWindow_of_fault {code : ResultCode} (h : creationFault n s = some code) :
    createWindow n s = actionFailed s code none := by
  simp [createWindow, h]

theorem createWindow_of_noFree (fine : creationFault n s = none) (occupied : ∀ i, (s.win i).phase ≠ .free) :
    createWindow n s = actionFailed s .noFreeWindow none := by
  simp [createWindow, fine, freeWindow_eq_none occupied]

theorem createWindow_of_free {i : WinIdx} (fine : creationFault n s = none) (free : (s.win i).phase = .free)
    (lowest : ∀ j, j < i → (s.win j).phase ≠ .free) :
    createWindow n s = actionDone (created i n s) (some i) := by
  simp [createWindow, fine, freeWindow_eq_some free lowest, enterFirst_newRecord]

end Creation

/-- Settles O45: the record, the operands, and the creation by its outcome. -/
theorem create : Obligations.Create := by
  refine ⟨actionRecordOf_eq, fun r => rfl, fun s stands => ⟨fun code fault => ?_, fun fine =>
    ⟨fun occupied => ?_, fun i free lowest => ?_⟩⟩⟩
  · exact exec_action_failed rfl stands (createWindow_of_fault (s := frameDone s) fault)
  · exact exec_action_failed rfl stands (createWindow_of_noFree (s := frameDone s) fine occupied)
  · exact exec_action rfl stands (createWindow_of_free (s := frameDone s) fine free lowest)

/-! ## RENEW, ACTIVATE and REVOKE (R32, R35, R83, R86) -/

theorem renewable_iff (w : Window) :
    w.renewable = true ↔ w.phase = .held ∨ w.phase = .taper ∨ w.phase = .lapsed := by
  simp [Window.renewable, or_assoc]

theorem amendable_iff (w : Window) : w.amendable = true ↔ changeable w := by
  simp [Window.amendable, Window.live, or_assoc]

section OnWindow
variable {s t : State} {i : WinIdx}

theorem renewAction_of_renewable {a : ActionRecord}
    (h : (s.win i).phase = .held ∨ (s.win i).phase = .taper ∨ (s.win i).phase = .lapsed) :
    renewAction a i s = actionDone (renewed i a.budget s) (some i) := by
  rw [renewAction, if_pos ((renewable_iff _).2 h), renewWindow_eq]

theorem renewAction_of_other {a : ActionRecord}
    (h : ¬ ((s.win i).phase = .held ∨ (s.win i).phase = .taper ∨ (s.win i).phase = .lapsed)) :
    renewAction a i s = actionFailed s .wrongState (some i) := if_neg (mt (renewable_iff _).1 h)

theorem activateWindow_of_waiting (phase : (s.win i).phase = .arming) (onset : (s.win i).onset = 15) :
    activateWindow i s = actionDone (inPhase i .held (s.win i).hold s) (some i) := by
  rw [activateWindow, if_pos (by simp [phase, onset]), enterHeld_eq]

theorem activateWindow_of_other (h : ¬ ((s.win i).phase = .arming ∧ (s.win i).onset = 15)) :
    activateWindow i s = actionFailed s .wrongState (some i) := if_neg (by simpa using h)

theorem revokeWindow_of_changeable (hm : engineMatches s) (h : changeable (s.win i)) :
    revokeWindow i s = actionDone (grantDecision (retired i s)) (some i) := by
  rw [revokeWindow, if_pos ((amendable_iff _).2 h), enterDraining_eq i s hm]

theorem revokeWindow_of_other (h : ¬ changeable (s.win i)) :
    revokeWindow i s = actionFailed s .wrongState (some i) := if_neg (mt (amendable_iff _).1 h)

end OnWindow

/-- Settles O48, by the index and the phase of the window. -/
theorem renewActivateAndRevoke : Obligations.RenewActivateAndRevoke := by
  refine ⟨fun s => ⟨fun stands => ⟨fun outside => ?_, fun i named => ⟨fun phase => ?_, fun other => ?_⟩⟩,
    fun stands => ⟨fun outside => ?_, fun i named => ⟨fun phase onset => ?_, fun other => ?_⟩⟩⟩,
    fun s stands hm => ⟨fun outside => ?_, fun i named => ⟨fun live => ?_, fun other => ?_⟩⟩⟩
  · exact exec_action_failed rfl stands (onWindow_bad outside)
  · exact exec_action rfl stands ((onWindow_of_eq named).trans (renewAction_of_renewable (s := frameDone s) phase))
  · exact exec_action_failed rfl stands ((onWindow_of_eq named).trans (renewAction_of_other (s := frameDone s) other))
  · exact exec_action_failed rfl stands (onWindow_bad outside)
  · exact exec_action rfl stands
      ((onWindow_of_eq named).trans (activateWindow_of_waiting (s := frameDone s) phase onset))
  · exact exec_action_failed rfl stands
      ((onWindow_of_eq named).trans (activateWindow_of_other (s := frameDone s) other))
  · exact exec_action_failed rfl stands (onWindow_bad outside)
  · exact exec_action rfl stands
      ((onWindow_of_eq named).trans (revokeWindow_of_changeable (s := frameDone s) hm live))
  · exact exec_action_failed rfl stands
      ((onWindow_of_eq named).trans (revokeWindow_of_other (s := frameDone s) other))

/-! ## Ports, faults and the Scrub Engine (R117, R142, R143, R153, R156, R158) -/

/-- UNWIND: the closed frame's state with one stack emptied (R117). -/
theorem exec_unwind {s : State} {p : Port} (port : p = (record s).port) (stands : actionStands s 8) :
    exec .unwind s = .next (withResult .done none s.clock.time (emptyStack p (frameDone s))) := by
  subst port
  exact exec_action rfl stands rfl

section AckFault
variable {s : State} {slot : BitVec 6} {n : Fin 8}

theorem ackFault_of_outside (h : 7 < slot.toNat) : ackFault slot s = actionFailed s .badIndex none :=
  dif_neg (by omega)

/-- ACK_FAULT of a slot of the recorder, by whether it is HELD (R153). -/
theorem ackFault_of_slot (h : slot.toNat = n.val) : ackFault slot s =
    if s.faults.slots[n].isSome then
      actionDone { s with faults := { s.faults with slots := s.faults.slots.set n none } } none
    else actionFailed s .wrongState none := by
  have inside : slot.toNat < 8 := by omega
  rw [ackFault, dif_pos inside]
  simp only [h]
  rfl

theorem ackFault_of_empty (h : slot.toNat = n.val) (empty : s.faults.slots[n] = none) :
    ackFault slot s = actionFailed s .wrongState none := by
  rw [ackFault_of_slot h, empty]
  rfl

theorem ackFault_of_held (h : slot.toNat = n.val) (held : s.faults.slots[n] ≠ none) : ackFault slot s =
    actionDone { s with faults := { s.faults with slots := s.faults.slots.set n none } } none := by
  rw [ackFault_of_slot h, if_pos (Option.isSome_iff_ne_none.2 held)]

end AckFault

/-- Settles O49, action by action. -/
theorem portFaultAndScrubActions : Obligations.PortFaultAndScrubActions := by
  refine ⟨fun s p port => ⟨fun stands => ?_, fun stands => ⟨fun stopped => ?_, fun other => ?_⟩, fun stands => ?_⟩,
    fun s => ⟨fun stands => ⟨fun outside => ?_, fun n slot => ⟨fun empty => ?_, fun held => ?_⟩⟩, fun stands => ?_⟩,
    fun s => ⟨fun stands => ⟨fun runs => ?_, fun other => ?_⟩, fun stands => ⟨fun paused => ?_, fun other => ?_⟩⟩⟩
  · obtain ⟨scopes, refs, rest⟩ := emptyStack_eq p (frameDone s)
    refine ⟨_, exec_unwind port stands, ?_, scopes, refs, ?_⟩
    · rw [rest]; rfl
    · rw [rest]; rfl
  · subst port
    exact exec_action rfl stands (if_pos (beq_iff_eq.2 stopped))
  · subst port
    exact exec_action_failed rfl stands (if_neg (mt beq_iff_eq.1 other))
  · subst port
    exact exec_action rfl stands rfl
  · exact exec_action_failed rfl stands (ackFault_of_outside outside)
  · exact exec_action_failed rfl stands (ackFault_of_empty (s := frameDone s) slot empty)
  · exact exec_action rfl stands (ackFault_of_held (s := frameDone s) slot held)
  · exact exec_action rfl stands rfl
  · exact exec_action rfl stands (if_pos (beq_iff_eq.2 runs))
  · exact exec_action_failed rfl stands (if_neg (mt beq_iff_eq.1 other))
  · exact exec_action rfl stands (if_pos (beq_iff_eq.2 paused))
  · exact exec_action_failed rfl stands (if_neg (mt beq_iff_eq.1 other))

end Sys2Proof.Actions
end

section
/-! PROOFS. Ends of drains (spec/02 R38) and write-data deadlines (spec/01 R6): the row of each as the record update it
makes, and the LCLK period in which a deadline stands alone. -/

namespace Sys2Proof.Deadlines
open Sys2Proof.Machine Sys2Proof.Safety

/-! ## The end of a drain (R38, R137, R138) -/

section Drain
variable {i : WinIdx} {s : State}

theorem exec_drainEnd_idle (h : ¬ ((s.win i).phase = .draining ∧ (s.win i).inFlight = 0)) :
    exec (.drainEnd i) s = .next s := congrArg Host.Outcome.next (if_neg (by simpa using h))

theorem exec_drainEnd_due (hm : engineMatches s) (draining : (s.win i).phase = .draining)
    (count : (s.win i).inFlight = 0) : exec (.drainEnd i) s = .next (grantDecision (drained i s)) := by
  rw [← endDrain_eq i s hm]
  exact congrArg Host.Outcome.next (if_pos (by simp [draining, count]))

theorem drained_of_noScrub (h : (s.win i).scrub = false) : drained i s = s.setWin i Window.cleared := if_pos h

theorem drained_of_busy (h : (s.win i).scrub = true) (busy : s.scrub.state ≠ .idle) : drained i s =
    { s with scrub := { s.scrub with list := s.scrub.list ++ [i] } }.setWin i
      { s.win i with phase := .scrubWait } :=
  (if_neg (by simp [h])).trans (if_neg fun idle => busy idle.1)

/-- An IDLE engine has an empty list, and takes the window (R138). -/
theorem drained_of_idle (hm : engineMatches s) (h : (s.win i).scrub = true) (idle : s.scrub.state = .idle) :
    drained i s = { s with scrub := { s.scrub with
      state := .running, progress := some ⟨i, 0, 2 ^ (s.win i).sizeClass.toNat⟩, list := [] } }.setWin i
        { s.win i with phase := .scrubbing } := by
  have empty := hm.2 idle
  refine ((if_neg (by simp [h])).trans (if_pos ⟨idle, empty⟩)).trans ?_
  rw [← empty]

end Drain

/-- Settles O38, by the scrub flag and the engine. -/
theorem drainEnd : Obligations.DrainEnd := by
  refine fun i s hm => ⟨exec_drainEnd_idle, fun draining count => ⟨fun plain => ?_, fun scrub busy => ?_,
    fun scrub idle => ?_⟩⟩ <;> rw [exec_drainEnd_due hm draining count]
  · rw [drained_of_noScrub plain]
  · rw [drained_of_busy scrub busy]
  · rw [drained_of_idle hm scrub idle]

/-! ## What a data deadline leaves, by the decision (R6) -/

/-- The missing beats of an entry of port `p` join its discard count. -/
def owing (p : Port) (e : Entry) (s : State) : State :=
  s.setPort p { s.port p with discard := (s.port p).discard + (e.access.beats - e.received.getD 0) }

/-- Port `p`'s pending list replaced. -/
def withPending (p : Port) (l : List Entry) (s : State) : State := s.setPort p { s.port p with pending := l }

section TimedOut
variable {p : Port} {q : Slot} {s : State}

theorem timedOut_of_admitted {addrs : List SramAddr} {lanes : List LaneSet} {trimmed : Bool} {bound : Option WinIdx}
    (h : q.entry.decision = .admitted addrs lanes trimmed bound) : timedOut p q s =
      answeredAt p q (refusal q.entry.access .dataTimeout) (faultEvent p .dataTimeout .write q.entry.access.address
        bound (unboundFrom bound (owing p q.entry s))) := by
  simp only [timedOut, h]
  rfl

theorem timedOut_of_allAborted (h : q.entry.decision = .allAborted) : timedOut p q s =
    answeredAt p q (refusal q.entry.access .dataTimeout)
      (faultEvent p .dataTimeout .write q.entry.access.address none (owing p q.entry s)) := by
  simp only [timedOut, h]
  rfl

theorem timedOut_of_routed (h : q.entry.decision = .routed) : timedOut p q s =
    answeredAt p q (refusal q.entry.access .dataTimeout)
      (faultEvent p .dataTimeout .control q.entry.access.address none (owing p q.entry s)) := by
  simp only [timedOut, h]
  rfl

theorem timedOut_of_refused {reason : Reason} (h : q.entry.decision = .refused reason) : timedOut p q s =
    answeredAt p q (refusal q.entry.access reason) (owing p q.entry s) := by
  simp only [timedOut, h]
  rfl

/-! ### The list an entry stood in -/

theorem owing_withPending (e : Entry) (l : List Entry) : owing p e (withPending p l s) = withPending p l (owing p e s) := by
  simp [owing, withPending]

theorem unboundFrom_withPending (bound : Option WinIdx) (l : List Entry) (hm : engineMatches s) :
    unboundFrom bound (withPending p l s) = withPending p l (unboundFrom bound s) := by
  have hm' : engineMatches (withPending p l s) := hm
  rw [← releaseBound_eq bound _ hm', ← releaseBound_eq bound s hm, withPending, withPending, releaseBound_setPort,
    releaseBound_port]

theorem faultEvent_withPending (reason : Reason) (kind : FaultKind) (a : PortAddr) (w : Option WinIdx)
    (l : List Entry) : faultEvent p reason kind a w (withPending p l s) =
      withPending p l (faultEvent p reason kind a w s) := faultEvent_setPending p reason kind a w l s

theorem answeredAt_withPending (r : Response) (l : List Entry) :
    answeredAt p q r (withPending p l s) = answeredAt p q r s := Requests.answeredAt_setPending p q r l s

/-- The answer of the oldest entry reads its access, its decision and the beats received, and nothing of the list it
stood in. -/
theorem timedOut_oldest {e e' : Entry} {younger : List Entry} (l : List Entry) (hm : engineMatches s)
    (access : e'.access = e.access) (same : e'.decision = e.decision) (received : e'.received = e.received)
    (writes : ∀ w, e.decision ≠ .served w) :
    timedOut p ⟨[], e', younger⟩ (withPending p l s) = timedOut p ⟨[], e, younger⟩ s := by
  have answered (r : Response) (t : State) : answeredAt p ⟨[], e', younger⟩ r t =
      answeredAt p ⟨[], e, younger⟩ r t := rfl
  have owed (t : State) : owing p e' t = owing p e t := by rw [owing, access, received, owing]
  have hm' : engineMatches (owing p e s) := hm
  cases decision : e.decision with
  | admitted addrs lanes trimmed bound =>
    rw [timedOut_of_admitted (same.trans decision), timedOut_of_admitted decision, owed, access, owing_withPending,
      unboundFrom_withPending bound l hm', faultEvent_withPending, answeredAt_withPending, answered]
  | allAborted =>
    rw [timedOut_of_allAborted (same.trans decision), timedOut_of_allAborted decision, owed, access,
      owing_withPending, faultEvent_withPending, answeredAt_withPending, answered]
  | routed =>
    rw [timedOut_of_routed (same.trans decision), timedOut_of_routed decision, owed, access, owing_withPending,
      faultEvent_withPending, answeredAt_withPending, answered]
  | refused reason =>
    rw [timedOut_of_refused (same.trans decision), timedOut_of_refused decision, owed, access, owing_withPending,
      answeredAt_withPending, answered]
  | served w => exact absurd decision (writes w)

/-! ### The lists it leaves -/

theorem port_answeredAt_ne {r : Port} (hr : r ≠ p) (a : Response) : (answeredAt p q a s).port r = s.port r := by
  unfold answeredAt
  split
  · rw [followed, State.port_setPort_ne _ _ hr, State.port_setPort_ne _ _ hr]
  · rw [State.port_setPort_ne _ _ hr]

theorem port_unboundFrom (bound : Option WinIdx) (r : Port) : (unboundFrom bound s).port r = s.port r := by
  rw [Resets.unboundFrom_eq]
  rfl

/-- A data deadline touches no other port's list. -/
theorem pending_timedOut_ne {r : Port} (hr : r ≠ p) : ((timedOut p q s).port r).pending = (s.port r).pending := by
  have owed : ((owing p q.entry s).port r).pending = (s.port r).pending := by
    rw [owing, State.port_setPort_ne _ _ hr]
  have faulted (reason : Reason) (kind : FaultKind) (a : PortAddr) (w : Option WinIdx) (t : State) :=
    Bursts.pending_of_stage (Bursts.stage_faultEvent p reason kind a w t) r
  cases decision : q.entry.decision with
  | admitted addrs lanes trimmed bound =>
    rw [timedOut_of_admitted decision, port_answeredAt_ne hr, faulted, port_unboundFrom, owed]
  | allAborted => rw [timedOut_of_allAborted decision, port_answeredAt_ne hr, faulted, owed]
  | routed => rw [timedOut_of_routed decision, port_answeredAt_ne hr, faulted, owed]
  | refused reason => rw [timedOut_of_refused decision, port_answeredAt_ne hr, owed]
  | served w => simp only [timedOut, decision]; exact owed

/-- The only entry answered leaves its port an empty list. -/
theorem pending_timedOut_alone {e : Entry} (writes : ∀ w, e.decision ≠ .served w) :
    ((timedOut p ⟨[], e, []⟩ s).port p).pending = [] := by
  have answered (r : Response) (t : State) : ((answeredAt p ⟨[], e, []⟩ r t).port p).pending = [] := by
    simp [answeredAt, followed]
  cases decision : e.decision with
  | admitted addrs lanes trimmed bound => rw [timedOut_of_admitted decision, answered]
  | allAborted => rw [timedOut_of_allAborted decision, answered]
  | routed => rw [timedOut_of_routed decision, answered]
  | refused reason => rw [timedOut_of_refused decision, answered]
  | served w => exact absurd decision (writes w)

end TimedOut

/-! ## A data deadline as its own row (R6) -/

section Row
variable {s : State} {p : Port} {q : Slot} {n : Nat}

theorem clockActs_of_running (run : running s) : clockActs s = true := by simp [clockActs, run.1, run.2]

/-- The deadline entry at a slot's place is the slot's entry, where it waits with a count that meets the test. -/
theorem deadlineEntry_of_stands {test : Nat → Bool} {k : Nat} (standing : stands s p q)
    (waits : q.entry.progress = .waitingData) (count : q.entry.deadlineCount = some k) (met : test k = true) :
    deadlineEntry test p q.older.length s = some q.entry := by
  rw [deadlineEntry, stands_get standing]
  simp [waits, count, met]

/-- A data deadline whose count meets the test. -/
theorem deadlineIf_of_stands {test : Nat → Bool} {k : Nat} (hm : engineMatches s) (standing : stands s p q)
    (waits : q.entry.progress = .waitingData) (count : q.entry.deadlineCount = some k) (met : test k = true) :
    deadlineIf test p q.older.length s = timedOut p q s := by
  rw [← dataDeadline_eq standing hm waits, deadlineIf, deadlineEntry_of_stands standing waits count met]

theorem exec_dataDeadline_due (run : running s) (hm : engineMatches s) (standing : stands s p q)
    (waits : q.entry.progress = .waitingData) (count : q.entry.deadlineCount = some 1) :
    exec (.dataDeadline p q.older.length) s = .next (grantDecision (timedOut p q s)) := by
  refine congrArg Host.Outcome.next ((if_pos (clockActs_of_running run)).trans (congrArg grantDecision ?_))
  exact deadlineIf_of_stands hm standing waits count (by decide)

theorem refusal_of_write {acc : Access} (reason : Reason) (write : acc.kind = .write) :
    refusal acc reason = ⟨.refused, some reason, []⟩ := by
  simp [refusal, write]

end Row

/-! ## A deadline that stands alone in its LCLK period (log 4) -/

section Alone
variable {s : State} {p : Port} {e : Entry}

/-- A port without entries has no deadline. -/
theorem deadlineIf_of_empty {test : Nat → Bool} {place : Nat} (h : (s.port p).pending = []) :
    deadlineIf test p place s = s := by
  simp [deadlineIf, deadlineEntry, h]

/-- The deadlines of a period at which only the first entry of port `p` is due. -/
theorem foldl_deadlines_alone {x : State} (p : Port) (others : ∀ r, r ≠ p → (x.port r).pending = [])
    (after : ∀ r, ((deadlineIf (· == 0) p 0 x).port r).pending = []) :
    (wholePeriod.foldl runPart (x, false)).1 = deadlineIf (· == 0) p 0 x := by
  have quiet (r : Port) (place : Nat) (hr : r ≠ p) : deadlineIf (· == 0) r place x = x :=
    deadlineIf_of_empty (others r hr)
  have done (r : Port) (place : Nat) :
      deadlineIf (· == 0) r place (deadlineIf (· == 0) p 0 x) = deadlineIf (· == 0) p 0 x :=
    deadlineIf_of_empty (after r)
  cases p <;> simp [wholePeriod, allPorts, runPart, quiet, done]

/-- The counts of a period without a tick, where only the first entry of port `p` stands. -/
theorem countPeriod_alone (stopped : s.clock.run = false) (alone : (s.port p).pending = [e])
    (others : ∀ r, r ≠ p → (s.port r).pending = []) : countPeriod s = withPending p [e.countDown] s := by
  have idle (r : Port) (hr : r ≠ p) : (s.port r).countDown = s.port r := by
    rw [Piu.countDown, others r hr, List.map_nil, ← others r hr]
  have counted : (s.port p).countDown = { s.port p with pending := [e.countDown] } := by
    rw [Piu.countDown, alone]
    rfl
  have prescaler : (if s.clock.run && !tickDue s then s.clock.prescaler + 1 else s.clock.prescaler) =
      s.clock.prescaler := if_neg (by simp [stopped])
  have clock : (countPeriod s).clock = s.clock := by simp only [countPeriod, prescaler]
  have ports (r : Port) : (countPeriod s).port r = (s.port r).countDown := by cases r <;> rfl
  have piu : (countPeriod s).piu = (withPending p [e.countDown] s).piu := by
    have same (r : Port) : (countPeriod s).port r = (withPending p [e.countDown] s).port r := by
      by_cases hr : r = p
      · rw [hr, ports, counted, withPending, State.port_setPort_self]
      · rw [ports, idle r hr, withPending, State.port_setPort_ne _ _ hr]
    have a := same .a; have b := same .b; have c := same .c; have d := same .d
    simp only [State.port, PerPort.get] at a b c d
    exact PerPort.mk.injEq .. ▸ ⟨a, b, c, d⟩
  calc countPeriod s = { s with piu := (countPeriod s).piu, clock := (countPeriod s).clock } := rfl
    _ = withPending p [e.countDown] s := by rw [piu, clock]; rfl

/-- The LCLK period that brings the only entry's count to 0 is its deadline. -/
theorem lclkPeriod_alone (hm : engineMatches s) (stopped : s.clock.run = false) (alone : (s.port p).pending = [e])
    (others : ∀ r, r ≠ p → (s.port r).pending = []) (waits : e.progress = .waitingData)
    (count : e.deadlineCount = some 1) (writes : ∀ w, e.decision ≠ .served w) :
    lclkPeriod [] s = grantDecision (timedOut p ⟨[], e, []⟩ s) := by
  have lowered : e.countDown = { e with deadlineCount := some 0 } := by simp [Entry.countDown, waits, count]
  have tick : tickDue s = false := by simp [tickDue, stopped]
  have standing : stands (withPending p [e.countDown] s) p ⟨[], { e with deadlineCount := some 0 }, []⟩ := by
    rw [lowered]
    exact ⟨by simp [withPending], by simp⟩
  have due : deadlineIf (· == 0) p 0 (withPending p [e.countDown] s) = timedOut p ⟨[], e, []⟩ s :=
    (deadlineIf_of_stands (s := withPending p [e.countDown] s) hm standing waits rfl rfl).trans
      (timedOut_oldest _ hm rfl rfl rfl writes)
  have elsewhere (r : Port) (hr : r ≠ p) : ((withPending p [e.countDown] s).port r).pending = [] := by
    rw [withPending, State.port_setPort_ne _ _ hr, others r hr]
  rw [lclkPeriod, List.nil_append, tick, countPeriod_alone stopped alone others,
    foldl_deadlines_alone p elsewhere ?_, due]
  intro r
  rw [due]
  by_cases hr : r = p
  · rw [hr, pending_timedOut_alone writes]
  · rw [pending_timedOut_ne hr, others r hr]

end Alone

/-- Settles O31, by the decision of the write, and alone in its LCLK period. -/
theorem dataDeadline : Obligations.DataDeadline := by
  intro p s u q n run hm standing waits count write received missing hu
  have row := exec_dataDeadline_due run hm standing waits count
  have owed : owing p q.entry s = u := by rw [hu, owing, received]; rfl
  refine ⟨fun addrs lanes trimmed bound decision => ?_, fun decision => ?_, fun decision => ?_,
    fun reason decision => ?_, fun none_older none_younger stopped others writes => ?_⟩
  · rw [row, timedOut_of_admitted decision, owed, refusal_of_write _ write]
  · rw [row, timedOut_of_allAborted decision, owed, refusal_of_write _ write]
  · rw [row, timedOut_of_routed decision, owed, refusal_of_write _ write]
  · rw [row, timedOut_of_refused decision, owed, refusal_of_write _ write]
  · obtain ⟨older, e, younger⟩ := q
    cases none_older
    cases none_younger
    have alone : (s.port p).pending = [e] := standing.1
    refine (congrArg Host.Outcome.next ((if_pos (clockActs_of_running run)).trans ?_)).trans row.symm
    exact lclkPeriod_alone hm stopped alone others waits count writes

end Sys2Proof.Deadlines
end

section
/-! PROOFS. The tables (spec/02, 04, 06, 08) as one invariant: what the windows, the scope stacks, the scrub list and the
expiry list say of each other, and what one window's update leaves of it. -/

namespace Sys2Proof.Tables
open Sys2Proof.Machine Sys2Proof.Safety

/-! ## The invariant -/

/-- A window record by itself: cleared or formed, bound accesses while it drains, none while it waits or is scrubbed.
`idle` excepts a window whose drain stands at a count of 0 within an event. -/
structure WindowOk (idle : Prop) (w : Window) : Prop where
  free : w.phase = .free → w = Window.cleared
  formed : w.phase ≠ .free → Formed w
  draining : w.phase = .draining → w.inFlight ≠ 0 ∨ idle
  quiet : w.phase = .scrubWait ∨ w.phase = .scrubbing → w.inFlight = 0

/-- The expiry list in line with the windows; entries of the windows `due` may stand at a reached deadline. -/
structure ExpiryOk (due : List WinIdx) (s : State) : Prop where
  timed : ∀ i, (s.win i).deadline.isSome = true ↔ timedPhase (s.win i)
  listed : ∀ i d, (s.win i).deadline = some d ↔ ⟨i, d⟩ ∈ s.clock.expiry
  distinct : (s.clock.expiry.map (·.window)).Nodup
  sorted : s.clock.expiry.Pairwise fun x y =>
    remaining s.clock.time x.deadline ≤ remaining s.clock.time y.deadline
  ahead : ∀ e ∈ s.clock.expiry, 1 ≤ remaining s.clock.time e.deadline ∨ e.window ∈ due
  near : ∀ e ∈ s.clock.expiry, remaining s.clock.time e.deadline ≤ 2048000

/-- The tables within an event: window `idle` may drain at a count of 0, the windows `due` may stand at a reached
deadline. -/
structure Table (idle : Option WinIdx) (due : List WinIdx) (s : State) : Prop where
  engine : engineMatches s
  windows : ∀ i, WindowOk (idle = some i) (s.win i)
  grants : grantsApart s
  scrubs : scrubsApart s
  scopes : scopesCounted s
  scrub : scrubMatches s
  expiry : ExpiryOk due s

theorem WindowOk.mono {P Q : Prop} {w : Window} (h : WindowOk P w) (k : P → Q) : WindowOk Q w :=
  ⟨h.free, h.formed, fun d => (h.draining d).imp_right k, h.quiet⟩

theorem ExpiryOk.mono {due due' : List WinIdx} {s : State} (h : ExpiryOk due s) (k : ∀ i ∈ due, i ∈ due') :
    ExpiryOk due' s :=
  ⟨h.timed, h.listed, h.distinct, h.sorted, fun e he => (h.ahead e he).imp_right (k _), h.near⟩

theorem Table.anyIdle {due : List WinIdx} {s : State} (h : Table none due s) (idle : Option WinIdx) :
    Table idle due s :=
  { h with windows := fun i => (h.windows i).mono fun e => by cases e }

theorem Table.anyDue {idle : Option WinIdx} {due : List WinIdx} {s : State} (h : Table idle [] s) :
    Table idle due s :=
  { h with expiry := h.expiry.mono fun _ hi => by cases hi }

/-- The tables of the invariants. -/
theorem table_of_invariants {s : State} (h : Invariants s) : Table none [] s where
  engine := h.engine
  windows i := by
    obtain ⟨free, formed, draining⟩ := h.formed i
    exact ⟨free, formed, fun d => .inl (draining d), (h.bindings i).2⟩
  grants := h.grants
  scrubs := h.scrubs
  scopes := h.scopes
  scrub := h.scrub
  expiry := by
    obtain ⟨timed, listed, distinct, sorted, bounds⟩ := h.expiry
    exact ⟨timed, listed, distinct, sorted, fun e he => .inl (bounds e he).1, fun e he => (bounds e he).2⟩

theorem Table.windowsFormed {s : State} (h : Table none [] s) : windowsFormed s := fun i =>
  ⟨(h.windows i).free, (h.windows i).formed, fun d => ((h.windows i).draining d).resolve_right (by simp)⟩

theorem Table.expiryMatches {s : State} (h : Table none [] s) : expiryMatches s :=
  ⟨h.expiry.timed, h.expiry.listed, h.expiry.distinct, h.expiry.sorted, fun e he =>
    ⟨(h.expiry.ahead e he).resolve_right (by simp), h.expiry.near e he⟩⟩

/-! ## Windows apart (R24, R25) -/

/-- From `v` to `w` a window has not grown: if it is still occupied, it has the same place and the same flags, and no
port more. -/
structure NotGrown (v w : Window) : Prop where
  occupied : v.phase ≠ .free
  kind : w.kind = v.kind
  ports : ∀ p, hasPort w.ports p = true → hasPort v.ports p = true
  portBase : w.portBase = v.portBase
  sizeClass : w.sizeClass = v.sizeClass
  target : w.target = v.target
  scrub : w.scrub = v.scrub

/-- Windows that have not grown stay apart. -/
theorem grantsApart_of_notGrown {s t : State} (h : ∀ i, (t.win i).phase ≠ .free → NotGrown (s.win i) (t.win i))
    (hs : grantsApart s) : grantsApart t := by
  intro i j p hij hi hj
  have gi := h i hi.1
  have gj := h j hj.1
  have := hs i j p hij ⟨gi.occupied, gi.kind ▸ hi.2.1, gi.ports p hi.2.2⟩
    ⟨gj.occupied, gj.kind ▸ hj.2.1, gj.ports p hj.2.2⟩
  rwa [gi.portBase, gi.sizeClass, gj.portBase, gj.sizeClass]

theorem scrubsApart_of_notGrown {s t : State} (h : ∀ i, (t.win i).phase ≠ .free → NotGrown (s.win i) (t.win i))
    (hs : scrubsApart s) : scrubsApart t := by
  intro i j a b hij hi hj hf ha hb
  have gi := h i hi
  have gj := h j hj
  have := hs i j a b hij gi.occupied gj.occupied (gi.scrub ▸ hf) (gi.target ▸ ha) (gj.target ▸ hb)
  rwa [gi.sizeClass, gj.sizeClass]

/-! ## One window replaced -/

/-- `t` has window `i` replaced by `w` and every other window as `s` has it. -/
def Turned (i : WinIdx) (w : Window) (s t : State) : Prop := ∀ j, t.win j = if j = i then w else s.win j

theorem win_setWin (s : State) (i j : WinIdx) (w : Window) :
    (s.setWin i w).win j = if j = i then w else s.win j := by
  by_cases h : j = i
  · subst h; simp
  · rw [State.win_setWin_ne s w h, if_neg h]

theorem turned_setWin {i : WinIdx} {w : Window} {s t : State} (h : ∀ j, t.win j = s.win j) :
    Turned i w s (t.setWin i w) := fun j => by rw [win_setWin, h]

section Turned
variable {i : WinIdx} {w : Window} {s t : State} (h : Turned i w s t)
include h

theorem Turned.self : t.win i = w := by rw [h i, if_pos rfl]

theorem Turned.other {j : WinIdx} (hj : j ≠ i) : t.win j = s.win j := by rw [h j, if_neg hj]

/-- What holds of the new record and of every old one holds of every record after. -/
theorem Turned.all {P : WinIdx → Window → Prop} (hw : P i w) (hs : ∀ j, j ≠ i → P j (s.win j)) (j : WinIdx) :
    P j (t.win j) := by
  by_cases hj : j = i
  · subst hj; rwa [h.self]
  · rw [h.other hj]; exact hs j hj

theorem Turned.windowsOk {P Q : WinIdx → Prop} (hw : WindowOk (Q i) w) (hs : ∀ j, WindowOk (P j) (s.win j))
    (hPQ : ∀ j, j ≠ i → P j → Q j) (j : WinIdx) : WindowOk (Q j) (t.win j) :=
  h.all (P := fun j w => WindowOk (Q j) w) hw (fun j hj => (hs j).mono (hPQ j hj)) j

theorem Turned.notGrown (hw : w.phase ≠ .free → NotGrown (s.win i) w) (j : WinIdx) (hj : (t.win j).phase ≠ .free) :
    NotGrown (s.win j) (t.win j) :=
  h.all (P := fun j w => w.phase ≠ .free → NotGrown (s.win j) w) hw
    (fun _ _ k => ⟨k, rfl, fun _ => id, rfl, rfl, rfl, rfl⟩) j hj

end Turned

end Sys2Proof.Tables
end

section
/-! PROOFS. What keeps each table in line: frames and scope references (R109), scrub list and progress record (R136),
expiry list (R75). -/

namespace Sys2Proof.Tables
open Sys2Proof.Machine Sys2Proof.Safety

/-! ## Scope stacks -/

/-- The live frames that name window `i`. -/
def liveFrames (i : WinIdx) (scopes : PerPort (List Frame)) : Nat :=
  (allPorts.map fun p => (scopes.get p).countP (countsFor i)).sum

/-- Window `w` gives port `p` the range that a live frame holds (R51). -/
def Backs (w : Window) (p : Port) (f : Frame) : Prop :=
  holdsGrant w p ∧ (w.phase = .held ∨ w.phase = .taper) ∧ f.portBase = w.portBase ∧ f.sizeClass = w.sizeClass

theorem scopesCounted_iff (s : State) : scopesCounted s ↔
    (∀ i, (s.win i).scopeRefs = liveFrames i s.scopes) ∧
      ∀ p, ∀ f ∈ s.scopes.get p, f.orphan = false → Backs (s.win f.window) p f := Iff.rfl

/-- A stack replaced changes the count by that stack alone. -/
theorem liveFrames_set (i : WinIdx) (scopes : PerPort (List Frame)) (p : Port) (l : List Frame) :
    liveFrames i (scopes.set p l) + (scopes.get p).countP (countsFor i) =
      liveFrames i scopes + l.countP (countsFor i) := by
  cases p <;> simp only [liveFrames, allPorts, PerPort.set, PerPort.get, List.map_cons, List.map_nil, List.sum_cons,
    List.sum_nil] <;> omega

/-- Where no frame that names a window is live, none counts for it. -/
theorem countP_countsFor_eq_zero {i : WinIdx} {l : List Frame} (h : ∀ f ∈ l, f.orphan = false → f.window ≠ i) :
    l.countP (countsFor i) = 0 := by
  rw [List.countP_eq_zero]
  intro f hf hc
  simp only [countsFor, Bool.and_eq_true, beq_iff_eq, Bool.not_eq_true'] at hc
  exact h f hf hc.2 hc.1

theorem liveFrames_eq_zero {i : WinIdx} {scopes : PerPort (List Frame)}
    (h : ∀ p, ∀ f ∈ scopes.get p, f.orphan = false → f.window ≠ i) : liveFrames i scopes = 0 := by
  have none (p : Port) : (scopes.get p).countP (countsFor i) = 0 := countP_countsFor_eq_zero (h p)
  simp [liveFrames, allPorts, none]

/-- A window that is not in force has no scope references (R109). -/
theorem scopeRefs_of_idle {s : State} (h : scopesCounted s) {i : WinIdx}
    (hi : ¬ ((s.win i).phase = .held ∨ (s.win i).phase = .taper)) : (s.win i).scopeRefs = 0 := by
  rw [((scopesCounted_iff s).1 h).1 i]
  refine liveFrames_eq_zero fun p f hf live hw => hi ?_
  have := (h.2 p f hf live).2.1
  rwa [hw] at this

/-- The stacks stand, and every window that backs a frame goes on backing it. -/
theorem scopesCounted_of_stacks {s t : State} (scopes : t.scopes = s.scopes)
    (refs : ∀ i, (t.win i).scopeRefs = (s.win i).scopeRefs)
    (backs : ∀ i p f, Backs (s.win i) p f → Backs (t.win i) p f) (h : scopesCounted s) : scopesCounted t := by
  refine (scopesCounted_iff t).2 ⟨fun i => ?_, fun p f hf live => backs _ p f (h.2 p f (scopes ▸ hf) live)⟩
  rw [refs, scopes]
  exact h.1 i

/-! ### Frames orphaned -/

theorem orphanedFrame_window (i : WinIdx) (f : Frame) : (orphanedFrame i f).window = f.window := by
  unfold orphanedFrame; split <;> rfl

/-- A frame that is live after the orphaning of window `i`'s is the frame it was, and names another window. -/
theorem orphanedFrame_of_live {i : WinIdx} {f : Frame} (h : (orphanedFrame i f).orphan = false) :
    orphanedFrame i f = f ∧ f.window ≠ i := by
  unfold orphanedFrame at h ⊢
  split
  · rename_i hw; rw [if_pos hw] at h; cases h
  · rename_i hw; exact ⟨rfl, hw⟩

/-- After the orphaning of window `i`'s frames, another window counts the frames it did and window `i` none. -/
theorem countP_orphaned (i j : WinIdx) (l : List Frame) : (l.map (orphanedFrame i)).countP (countsFor j) =
    if j = i then 0 else l.countP (countsFor j) := by
  by_cases hj : j = i
  · subst hj
    rw [if_pos rfl]
    refine countP_countsFor_eq_zero fun f hf live => ?_
    obtain ⟨g, -, rfl⟩ := List.mem_map.1 hf
    rw [orphanedFrame_window]
    exact (orphanedFrame_of_live live).2
  · rw [if_neg hj, List.countP_map]
    refine List.countP_congr fun f _ => ?_
    simp only [Function.comp, countsFor, orphanedFrame]
    by_cases hf : f.window = i
    · have : ¬ i = j := fun e => hj e.symm
      simp [hf, this]
    · simp [hf]

/-- The frames that live after every frame naming window `i` is orphaned. -/
theorem mem_orphaned_live {i : WinIdx} {s : State} {p : Port} {f : Frame} (hf : f ∈ (orphaned i s).get p)
    (live : f.orphan = false) : f ∈ s.scopes.get p ∧ f.window ≠ i := by
  have hm : f ∈ (s.scopes.get p).map (orphanedFrame i) := by cases p <;> exact hf
  obtain ⟨g, hg, rfl⟩ := List.mem_map.1 hm
  obtain ⟨e, hw⟩ := orphanedFrame_of_live live
  rw [e]; exact ⟨hg, hw⟩

theorem liveFrames_orphaned (i j : WinIdx) (s : State) :
    liveFrames j (orphaned i s) = if j = i then 0 else liveFrames j s.scopes := by
  have get (p : Port) : (orphaned i s).get p = (s.scopes.get p).map (orphanedFrame i) := by cases p <;> rfl
  simp only [liveFrames, get, countP_orphaned]
  by_cases hj : j = i <;> simp [hj, allPorts]

/-! ## Scrub list and progress record -/

/-- The engine's list and record stand, and so do the windows in them. -/
theorem scrubMatches_of_engine {s t : State} (list : t.scrub.list = s.scrub.list)
    (progress : t.scrub.progress = s.scrub.progress)
    (waiting : ∀ i, (t.win i).phase = .scrubWait ↔ (s.win i).phase = .scrubWait)
    (scrubbing : ∀ i, (t.win i).phase = .scrubbing ↔ (s.win i).phase = .scrubbing)
    (size : ∀ i, (s.win i).phase = .scrubbing → (t.win i).sizeClass = (s.win i).sizeClass)
    (h : scrubMatches s) : scrubMatches t := by
  obtain ⟨hw, hn, hs, hg⟩ := h
  refine ⟨fun i => by rw [waiting, list]; exact hw i, list ▸ hn,
    fun i => by rw [scrubbing, progress]; exact hs i, fun g e => ?_⟩
  rw [progress] at e
  rw [size g.window ((hs g.window).2 (by rw [e]; rfl))]
  exact hg g e

/-! ## The expiry list -/

/-- The list and lease time stand, and so do deadlines and timed phases. -/
theorem expiryOk_of_clock {due : List WinIdx} {s t : State} (list : t.clock.expiry = s.clock.expiry)
    (time : t.clock.time = s.clock.time) (deadline : ∀ i, (t.win i).deadline = (s.win i).deadline)
    (timed : ∀ i, timedPhase (t.win i) ↔ timedPhase (s.win i)) (h : ExpiryOk due s) : ExpiryOk due t := by
  refine ⟨fun i => ?_, fun i d => ?_, list ▸ h.distinct, ?_, ?_, ?_⟩
  · rw [deadline, timed]; exact h.timed i
  · rw [deadline, list]; exact h.listed i d
  · rw [list, time]; exact h.sorted
  · rw [list, time]; exact h.ahead
  · rw [list, time]; exact h.near

/-! ## An update of one window that no other table sees -/

/-- A window record replaced so that the stacks, the engine and the expiry list need no change. -/
structure Fits (idle : Prop) (v w : Window) : Prop where
  ok : WindowOk idle w
  grown : w.phase ≠ .free → NotGrown v w
  refs : w.scopeRefs = v.scopeRefs
  backs : ∀ p f, Backs v p f → Backs w p f
  waiting : w.phase = .scrubWait ↔ v.phase = .scrubWait
  scrubbing : w.phase = .scrubbing ↔ v.phase = .scrubbing
  size : v.phase = .scrubbing → w.sizeClass = v.sizeClass
  deadline : w.deadline = v.deadline
  timed : timedPhase w ↔ timedPhase v

/-- Such an update keeps the tables. -/
theorem Table.update {idle idle' : Option WinIdx} {due : List WinIdx} {i : WinIdx} {w : Window} {s t : State}
    (h : Table idle due s) (turned : Turned i w s t) (scopes : t.scopes = s.scopes) (scrub : t.scrub = s.scrub)
    (expiry : t.clock.expiry = s.clock.expiry) (time : t.clock.time = s.clock.time)
    (fits : Fits (idle' = some i) (s.win i) w) (others : ∀ j, j ≠ i → idle = some j → idle' = some j) :
    Table idle' due t where
  engine := by unfold engineMatches; rw [scrub]; exact h.engine
  windows := turned.windowsOk fits.ok h.windows others
  grants := grantsApart_of_notGrown (turned.notGrown fits.grown) h.grants
  scrubs := scrubsApart_of_notGrown (turned.notGrown fits.grown) h.scrubs
  scopes := scopesCounted_of_stacks scopes
    (turned.all (P := fun j w => w.scopeRefs = (s.win j).scopeRefs) fits.refs fun _ _ => rfl)
    (turned.all (P := fun j w => ∀ p f, Backs (s.win j) p f → Backs w p f) fits.backs fun _ _ _ _ => id) h.scopes
  scrub := scrubMatches_of_engine (by rw [scrub]) (by rw [scrub])
    (turned.all (P := fun j w => w.phase = .scrubWait ↔ (s.win j).phase = .scrubWait) fits.waiting fun _ _ => Iff.rfl)
    (turned.all (P := fun j w => w.phase = .scrubbing ↔ (s.win j).phase = .scrubbing) fits.scrubbing
      fun _ _ => Iff.rfl)
    (turned.all (P := fun j w => (s.win j).phase = .scrubbing → w.sizeClass = (s.win j).sizeClass) fits.size
      fun _ _ _ => rfl) h.scrub
  expiry := expiryOk_of_clock expiry time
    (turned.all (P := fun j w => w.deadline = (s.win j).deadline) fits.deadline fun _ _ => rfl)
    (turned.all (P := fun j w => timedPhase w ↔ timedPhase (s.win j)) fits.timed fun _ _ => Iff.rfl) h.expiry

/-- The tables stand where windows, stacks, engine, expiry list and lease time stand. -/
theorem Table.same {idle : Option WinIdx} {due : List WinIdx} {s t : State} (h : Table idle due s)
    (windows : ∀ i, t.win i = s.win i) (scopes : t.scopes = s.scopes)
    (engine : t.scrub.state = s.scrub.state) (list : t.scrub.list = s.scrub.list)
    (progress : t.scrub.progress = s.scrub.progress)
    (expiry : t.clock.expiry = s.clock.expiry) (time : t.clock.time = s.clock.time) : Table idle due t where
  engine := by unfold engineMatches; rw [engine, list, progress]; exact h.engine
  windows i := by rw [windows]; exact h.windows i
  grants i j p := by rw [windows, windows]; exact h.grants i j p
  scrubs i j a b := by rw [windows, windows]; exact h.scrubs i j a b
  scopes := scopesCounted_of_stacks scopes (fun i => by rw [windows]) (fun i p f => by rw [windows]; exact id) h.scopes
  scrub := scrubMatches_of_engine list progress (fun i => by rw [windows]) (fun i => by rw [windows])
    (fun i _ => by rw [windows]) h.scrub
  expiry := expiryOk_of_clock expiry time (fun i => by rw [windows]) (fun i => by rw [windows]) h.expiry

end Sys2Proof.Tables
end

section
/-! PROOFS. Deadlines, remaining time and durations (spec/04 R72 to R74), and what entering and leaving a phase does to
the expiry list (R75 to R77). -/

namespace Sys2Proof.Tables
open Sys2Proof.Machine Sys2Proof.Safety

/-! ## Deadlines and remaining time (R72) -/

theorem deadlineReached_iff (t d : LeaseTime) :
    deadlineReached t d = true ↔ (t.toNat + 2 ^ 32 - d.toNat) % 2 ^ 32 < 2 ^ 31 := by
  have ht := t.isLt
  have hd := d.isLt
  simp only [deadlineReached, decide_eq_true_eq, BitVec.toNat_sub]
  omega

theorem remaining_eq (t d : LeaseTime) : remaining t d = (d.toNat + 2 ^ 32 - t.toNat) % 2 ^ 32 := by
  have ht := t.isLt
  have hd := d.isLt
  simp only [remaining, BitVec.toNat_sub]
  omega

theorem deadlineReached_of_ahead {t d : LeaseTime} (ahead : 1 ≤ remaining t d) (near : remaining t d ≤ 2 ^ 31) :
    deadlineReached t d = false := by
  have ht := t.isLt
  have hd := d.isLt
  rw [remaining_eq] at ahead near
  rw [Bool.eq_false_iff, Ne, deadlineReached_iff]
  omega

theorem deadlineReached_of_remaining_zero {t d : LeaseTime} (h : remaining t d = 0) : deadlineReached t d = true := by
  have ht := t.isLt
  have hd := d.isLt
  rw [remaining_eq] at h
  rw [deadlineReached_iff]
  omega

/-- A tick lowers remaining time by 1. -/
theorem remaining_tick {t d : LeaseTime} (ahead : 1 ≤ remaining t d) : remaining (t + 1) d + 1 = remaining t d := by
  have ht := t.isLt
  have hd := d.isLt
  rw [remaining_eq] at ahead ⊢
  have one : (1 : LeaseTime).toNat = 1 := rfl
  rw [remaining_eq, BitVec.toNat_add, one]
  omega

theorem remaining_add (t : LeaseTime) {n : Nat} (h : n < 2 ^ 32) : remaining t (t + BitVec.ofNat 32 n) = n := by
  have ht := t.isLt
  rw [remaining_eq, BitVec.toNat_add, BitVec.toNat_ofNat]
  omega

/-! ## Durations (R73, R74) -/

theorem scaleFactor_eq : ∀ x : BitVec 2, scaleFactor x = 16 ^ x.toNat := by decide

theorem codeTicks_of_finite : ∀ c : Code, 1 ≤ c.toNat ∧ c.toNat ≤ 14 → 1 ≤ codeTicks c := by decide

theorem codeTicks_le : ∀ c : Code, codeTicks c ≤ 500 := by decide

theorem duration_le (c : Code) (scale : BitVec 2) : duration c scale ≤ 2048000 := by
  have factor : ∀ x : BitVec 2, scaleFactor x ≤ 4096 := by decide
  calc duration c scale ≤ 500 * 4096 := Nat.mul_le_mul (codeTicks_le c) (factor scale)
    _ = 2048000 := rfl

theorem duration_pos {c : Code} (h : 1 ≤ c.toNat ∧ c.toNat ≤ 14) (scale : BitVec 2) : 1 ≤ duration c scale := by
  have factor : ∀ x : BitVec 2, 1 ≤ scaleFactor x := by decide
  exact Nat.mul_le_mul (codeTicks_of_finite c h) (factor scale)

/-- A deadline that a phase gives lies ahead, and near. -/
theorem remaining_of_deadlineOf {time d : LeaseTime} {c : Code} {scale : BitVec 2}
    (h : deadlineOf time c scale = some d) : 1 ≤ remaining time d ∧ remaining time d ≤ 2048000 := by
  unfold deadlineOf at h
  split at h
  · rename_i finite
    cases h
    have le := duration_le c scale
    rw [remaining_add time (by omega)]
    exact ⟨duration_pos finite scale, le⟩
  · cases h

theorem deadlineOf_isSome (time : LeaseTime) (c : Code) (scale : BitVec 2) :
    (deadlineOf time c scale).isSome = true ↔ 1 ≤ c.toNat ∧ c.toNat ≤ 14 := by
  unfold deadlineOf
  split
  · rename_i h; simp [h]
  · rename_i h; simp [h]

/-! ## The expiry list (R75 to R77) -/

/-- The entry joins the others. -/
theorem insertExpiry_perm (time : LeaseTime) (e : Expiry) (l : List Expiry) : (insertExpiry time e l).Perm (e :: l) := by
  induction l with
  | nil => exact .refl _
  | cons x xs ih =>
    unfold insertExpiry
    split
    · exact (ih.cons x).trans (.swap e x xs)
    · exact .refl _

/-- The insertion keeps the order of remaining time (R76). -/
theorem insertExpiry_sorted (time : LeaseTime) (e : Expiry) {l : List Expiry}
    (h : l.Pairwise fun x y => remaining time x.deadline ≤ remaining time y.deadline) :
    (insertExpiry time e l).Pairwise fun x y => remaining time x.deadline ≤ remaining time y.deadline := by
  induction l with
  | nil => exact List.pairwise_singleton _ _
  | cons x xs ih =>
    obtain ⟨first, rest⟩ := List.pairwise_cons.1 h
    unfold insertExpiry
    split
    · rename_i le
      refine List.pairwise_cons.2 ⟨fun y hy => ?_, ih rest⟩
      rcases List.mem_cons.1 ((insertExpiry_perm time e xs).mem_iff.1 hy) with rfl | hy
      · exact le
      · exact first y hy
    · rename_i lt
      refine List.pairwise_cons.2 ⟨fun y hy => ?_, h⟩
      rcases List.mem_cons.1 hy with rfl | hy
      · omega
      · have := first y hy; omega

theorem expiryAfter_some (time : LeaseTime) (i : WinIdx) (d : LeaseTime) (l : List Expiry) :
    expiryAfter time i (some d) l = insertExpiry time ⟨i, d⟩ (l.filter fun e => e.window != i) :=
  (insertExpiry_eq time i d _).symm

/-- What stands in the list after window `i` entered or left a phase: every other window's entry, and its new one. -/
theorem mem_expiryAfter {time : LeaseTime} {i : WinIdx} {dl : Option LeaseTime} {l : List Expiry} {e : Expiry} :
    e ∈ expiryAfter time i dl l ↔ (e ∈ l ∧ e.window ≠ i) ∨ ∃ d, dl = some d ∧ e = ⟨i, d⟩ := by
  cases dl with
  | none => simp [expiryAfter]
  | some d =>
    rw [expiryAfter_some, (insertExpiry_perm _ _ _).mem_iff]
    simp [or_comm]

/-- Window `i` out of the list and, with a deadline, in again keeps the expiry list in line. -/
theorem ExpiryOk.after {due : List WinIdx} {i : WinIdx} {w : Window} {s t : State} (h : ExpiryOk (i :: due) s)
    (turned : Turned i w s t) (time : t.clock.time = s.clock.time)
    (list : t.clock.expiry = expiryAfter s.clock.time i w.deadline s.clock.expiry)
    (timed : w.deadline.isSome = true ↔ timedPhase w)
    (bounds : ∀ d, w.deadline = some d → 1 ≤ remaining s.clock.time d ∧ remaining s.clock.time d ≤ 2048000) :
    ExpiryOk due t where
  timed := turned.all (P := fun _ w => w.deadline.isSome = true ↔ timedPhase w) timed fun j _ => h.timed j
  listed j d := by
    rw [list, mem_expiryAfter]
    by_cases hj : j = i
    · subst hj
      rw [turned.self]
      simp
    · rw [turned.other hj, h.listed j d]
      simp [hj]
  distinct := by
    have kept : ((s.clock.expiry.filter fun e => e.window != i).map (·.window)).Nodup :=
      h.distinct.sublist ((List.filter_sublist).map _)
    rw [list]
    cases hd : w.deadline with
    | none => exact kept
    | some d =>
      rw [expiryAfter_some, ((insertExpiry_perm _ _ _).map _).nodup_iff]
      exact List.nodup_cons.2 ⟨by simp, kept⟩
  sorted := by
    have kept := h.sorted.sublist (List.filter_sublist (p := fun e => e.window != i))
    rw [list, time]
    cases hd : w.deadline with
    | none => exact kept
    | some d =>
      rw [expiryAfter_some]
      exact insertExpiry_sorted _ _ kept
  ahead e he := by
    rw [list, mem_expiryAfter] at he
    rw [time]
    rcases he with ⟨he, hi⟩ | ⟨d, hd, rfl⟩
    · refine (h.ahead e he).imp_right fun hm => ?_
      rcases List.mem_cons.1 hm with e | hm
      · exact absurd e hi
      · exact hm
    · exact .inl (bounds d hd).1
  near e he := by
    rw [list, mem_expiryAfter] at he
    rw [time]
    rcases he with ⟨he, -⟩ | ⟨d, hd, rfl⟩
    · exact h.near e he
    · exact (bounds d hd).2

end Sys2Proof.Tables
end

section
/-! PROOFS. The life of a window (spec/02 R22, R29 to R38; spec/04 R79 to R83): every change of its phase keeps the
tables in line. -/

namespace Sys2Proof.Tables
open Sys2Proof.Machine Sys2Proof.Safety

/-! ## Phases entered -/

/-- A change of phase, deadline and references leaves the window formed. -/
theorem formed_rephased {w : Window} (h : Formed w) (ph : Phase) (d : Option LeaseTime) (n : Nat) :
    Formed { w with phase := ph, deadline := d, scopeRefs := n } :=
  ⟨h.ports, h.sizeClass, h.portBase, h.target, h.inSram, h.hold, h.fence⟩

theorem occupied_of_changeable {w : Window} (h : changeable w) : w.phase ≠ .free := by
  rcases h with e | e | e | e <;> simp [e]

theorem not_waiting_of_changeable {w : Window} (h : changeable w) : w.phase ≠ .scrubWait ∧ w.phase ≠ .scrubbing := by
  rcases h with e | e | e | e <;> simp [e]

theorem turned_inPhase (i : WinIdx) (ph : Phase) (c : Code) (s : State) :
    Turned i { s.win i with phase := ph, deadline := deadlineOf s.clock.time c (s.win i).scale } s
      (inPhase i ph c s) := turned_setWin fun _ => rfl

/-- An occupied window in a phase of a finite or open duration has its entry in the expiry list (R76). -/
theorem expiryOk_inPhase {due : List WinIdx} {i : WinIdx} {ph : Phase} {c : Code} {s : State}
    (h : ExpiryOk (i :: due) s)
    (timed : timedPhase { s.win i with phase := ph, deadline := deadlineOf s.clock.time c (s.win i).scale } ↔
      1 ≤ c.toNat ∧ c.toNat ≤ 14) : ExpiryOk due (inPhase i ph c s) :=
  h.after (turned_inPhase i ph c s) rfl rfl ((deadlineOf_isSome _ _ _).trans timed.symm)
    fun _ hd => remaining_of_deadlineOf hd

/-- A window enters HELD, or TAPER from HELD (R29, R32, R79, R80, R83). -/
theorem Table.inPhase {due : List WinIdx} {i : WinIdx} {ph : Phase} {c : Code} {s : State}
    (h : Table none (i :: due) s) (live : changeable (s.win i))
    (enters : ph = .held ∧ c = (s.win i).hold ∨ ph = .taper ∧ c = (s.win i).taper) :
    Table none due (inPhase i ph c s) := by
  have turned := turned_inPhase i ph c s
  have inForce : ph = .held ∨ ph = .taper := enters.imp And.left And.left
  have occupied := occupied_of_changeable live
  have quiet := not_waiting_of_changeable live
  have formed := formed_rephased ((h.windows i).formed occupied) ph (deadlineOf s.clock.time c (s.win i).scale)
    (s.win i).scopeRefs
  have grown : NotGrown (s.win i) { s.win i with
      phase := ph, deadline := deadlineOf s.clock.time c (s.win i).scale } :=
    ⟨occupied, rfl, fun _ => id, rfl, rfl, rfl, rfl⟩
  have ph_ne : ph ≠ .free ∧ ph ≠ .draining ∧ ph ≠ .scrubWait ∧ ph ≠ .scrubbing := by
    rcases inForce with rfl | rfl <;> simp
  refine ⟨h.engine, turned.windowsOk ⟨fun e => absurd e ph_ne.1, fun _ => formed, fun e => absurd e ph_ne.2.1,
      fun e => (e.elim (fun e => ph_ne.2.2.1 e) (fun e => ph_ne.2.2.2 e)).elim⟩ h.windows fun _ _ => id,
    grantsApart_of_notGrown (turned.notGrown fun _ => grown) h.grants,
    scrubsApart_of_notGrown (turned.notGrown fun _ => grown) h.scrubs,
    scopesCounted_of_stacks (s := s) rfl (turned.all (P := fun j w => w.scopeRefs = (s.win j).scopeRefs) rfl fun _ _ => rfl)
      (turned.all (P := fun j w => ∀ p f, Backs (s.win j) p f → Backs w p f)
        (fun p f b => ⟨⟨ph_ne.1, b.1.2⟩, inForce, b.2.2⟩) fun _ _ _ _ => id) h.scopes,
    scrubMatches_of_engine (s := s) rfl rfl
      (turned.all (P := fun j w => w.phase = .scrubWait ↔ (s.win j).phase = .scrubWait)
        (by simp [ph_ne, quiet]) fun _ _ => Iff.rfl)
      (turned.all (P := fun j w => w.phase = .scrubbing ↔ (s.win j).phase = .scrubbing)
        (by simp [ph_ne, quiet]) fun _ _ => Iff.rfl)
      (turned.all (P := fun j w => (s.win j).phase = .scrubbing → w.sizeClass = (s.win j).sizeClass)
        (fun _ => rfl) fun _ _ _ => rfl) h.scrub,
    expiryOk_inPhase h.expiry ?_⟩
  rcases enters with ⟨rfl, rfl⟩ | ⟨rfl, rfl⟩ <;> simp [timedPhase]

/-! ## Phases without rights -/

theorem turned_withoutRights (i : WinIdx) (ph : Phase) (s : State) :
    Turned i { s.win i with phase := ph, deadline := none, scopeRefs := 0 } s (withoutRights i ph s) :=
  turned_setWin fun _ => rfl

/-- Frames orphaned and references cleared, the stacks and the windows agree (R36, R81, R109). -/
theorem scopesCounted_withoutRights {s : State} (i : WinIdx) (ph : Phase) (h : scopesCounted s) :
    scopesCounted (withoutRights i ph s) := by
  have turned := turned_withoutRights i ph s
  refine (scopesCounted_iff _).2 ⟨fun j => ?_, fun p f hf live => ?_⟩
  · rw [show (withoutRights i ph s).scopes = orphaned i s from rfl, liveFrames_orphaned, turned j]
    split
    · rfl
    · exact h.1 j
  · obtain ⟨hf, hw⟩ := mem_orphaned_live (i := i) (s := s) hf live
    rw [turned.other hw]
    exact h.2 p f hf live

/-- A window enters LAPSED or DRAINING (R36, R81); a drain may stand at a count of 0 then. -/
theorem Table.withoutRights {due : List WinIdx} {i : WinIdx} {ph : Phase} {s : State} (h : Table none (i :: due) s)
    (live : changeable (s.win i)) (enters : ph = .lapsed ∨ ph = .draining) :
    Table (some i) due (withoutRights i ph s) := by
  have turned := turned_withoutRights i ph s
  have occupied := occupied_of_changeable live
  have quiet := not_waiting_of_changeable live
  have ph_ne : ph ≠ .free ∧ ph ≠ .scrubWait ∧ ph ≠ .scrubbing ∧ ph ≠ .arming ∧ ph ≠ .held ∧ ph ≠ .taper := by
    rcases enters with rfl | rfl <;> simp
  have grown : NotGrown (s.win i) { s.win i with phase := ph, deadline := none, scopeRefs := 0 } :=
    ⟨occupied, rfl, fun _ => id, rfl, rfl, rfl, rfl⟩
  refine ⟨h.engine, turned.windowsOk ⟨fun e => absurd e ph_ne.1,
      fun _ => formed_rephased ((h.windows i).formed occupied) _ _ _, fun _ => .inr rfl,
      fun e => (e.elim (fun e => ph_ne.2.1 e) (fun e => ph_ne.2.2.1 e)).elim⟩ h.windows fun _ _ e => (by cases e),
    grantsApart_of_notGrown (turned.notGrown fun _ => grown) h.grants,
    scrubsApart_of_notGrown (turned.notGrown fun _ => grown) h.scrubs,
    scopesCounted_withoutRights i ph h.scopes,
    scrubMatches_of_engine (s := s) rfl rfl
      (turned.all (P := fun j w => w.phase = .scrubWait ↔ (s.win j).phase = .scrubWait)
        (by simp [ph_ne, quiet]) fun _ _ => Iff.rfl)
      (turned.all (P := fun j w => w.phase = .scrubbing ↔ (s.win j).phase = .scrubbing)
        (by simp [ph_ne, quiet]) fun _ _ => Iff.rfl)
      (turned.all (P := fun j w => (s.win j).phase = .scrubbing → w.sizeClass = (s.win j).sizeClass)
        (fun _ => rfl) fun _ _ _ => rfl) h.scrub,
    h.expiry.after turned rfl rfl (by simp [timedPhase, ph_ne]) (by simp)⟩

/-- A drain that does not stand at a count of 0 needs no exception. -/
theorem Table.noneIdle {due : List WinIdx} {i : WinIdx} {s : State} (h : Table (some i) due s)
    (hd : (s.win i).phase = .draining → (s.win i).inFlight ≠ 0) : Table none due s :=
  { h with
    windows := fun j => by
      obtain ⟨free, formed, draining, quiet⟩ := h.windows j
      refine ⟨free, formed, fun e => .inl ?_, quiet⟩
      rcases draining e with k | k
      · exact k
      · cases k; exact hd e }

/-! ## The end of a drain (R38, R137, R138) -/

theorem turned_drained (i : WinIdx) (s : State) : Turned i (if (s.win i).scrub = false then Window.cleared else
    if s.scrub.state = .idle ∧ s.scrub.list = [] then { s.win i with phase := .scrubbing }
    else { s.win i with phase := .scrubWait }) s (drained i s) := by
  unfold drained
  split
  · exact turned_setWin fun _ => rfl
  · split <;> exact turned_setWin fun _ => rfl

theorem drained_scopes (i : WinIdx) (s : State) : (drained i s).scopes = s.scopes := by
  unfold drained; split
  · rfl
  · split <;> rfl

theorem drained_clock (i : WinIdx) (s : State) : (drained i s).clock = s.clock := by
  unfold drained; split
  · rfl
  · split <;> rfl

section Drained
variable {due : List WinIdx} {i : WinIdx} {s : State} (h : Table (some i) due s)
  (draining : (s.win i).phase = .draining) (unbound : (s.win i).inFlight = 0)
include h draining unbound

/-- What the end of a drain makes of the window: cleared, or in line for its scrub. -/
theorem drained_windowOk (j : WinIdx) : WindowOk (none = some j) ((drained i s).win j) := by
  have formed := (h.windows i).formed (by simp [draining])
  refine (turned_drained i s).windowsOk (P := fun j => some i = some j) (Q := fun j => none = some j) ?_ h.windows
    (fun j hj e => absurd (Option.some.inj e).symm hj) j
  split
  · exact ⟨fun _ => rfl, fun e => absurd rfl e, fun e => (by cases e), fun _ => rfl⟩
  · split
    · exact ⟨fun e => (by cases e), fun _ => formed_rephased formed .scrubbing _ _, fun e => (by cases e), fun _ => unbound⟩
    · exact ⟨fun e => (by cases e), fun _ => formed_rephased formed .scrubWait _ _, fun e => (by cases e), fun _ => unbound⟩

omit h unbound in
theorem drained_notGrown (j : WinIdx) (hj : ((drained i s).win j).phase ≠ .free) :
    NotGrown (s.win j) ((drained i s).win j) := by
  have occupied : (s.win i).phase ≠ .free := by simp [draining]
  refine (turned_drained i s).notGrown (fun e => ?_) j hj
  split at e
  · exact absurd rfl e
  · rename_i hs
    rw [if_neg hs]
    split <;> exact ⟨occupied, rfl, fun _ => id, rfl, rfl, rfl, rfl⟩

omit unbound in
/-- A draining window backs no frame and has no references, before and after. -/
theorem drained_scopesCounted : scopesCounted (drained i s) := by
  have refs := scopeRefs_of_idle h.scopes (i := i) (by simp [draining])
  refine scopesCounted_of_stacks (drained_scopes i s)
    ((turned_drained i s).all (P := fun j w => w.scopeRefs = (s.win j).scopeRefs) ?_ fun _ _ => rfl)
    ((turned_drained i s).all (P := fun j w => ∀ p f, Backs (s.win j) p f → Backs w p f)
      (fun p f b => by simp [Backs, draining] at b) fun _ _ _ _ => id) h.scopes
  split
  · exact refs.symm
  · split <;> rfl

omit unbound in
theorem drained_expiryOk : ExpiryOk due (drained i s) := by
  have untimed : ¬ timedPhase (s.win i) := by simp [timedPhase, draining]
  have deadline : (s.win i).deadline = none := by
    simpa [Option.isSome_iff_ne_none, untimed] using (h.expiry.timed i).not
  refine expiryOk_of_clock (by rw [drained_clock]) (by rw [drained_clock])
    ((turned_drained i s).all (P := fun j w => w.deadline = (s.win j).deadline) ?_ fun _ _ => rfl)
    ((turned_drained i s).all (P := fun j w => timedPhase w ↔ timedPhase (s.win j)) ?_ fun _ _ => Iff.rfl) h.expiry
  · split
    · exact deadline.symm
    · split <;> rfl
  · split
    · simp [timedPhase, Window.cleared, draining]
    · split <;> simp [timedPhase, draining]

omit unbound in
/-- The window joins the scrub list, or the idle engine takes it, or neither sees it (R136 to R138). -/
theorem drained_scrubMatches : scrubMatches (drained i s) := by
  have turned := turned_drained i s
  obtain ⟨waiting, distinct, scrubbing, counts⟩ := h.scrub
  have notListed : i ∉ s.scrub.list := fun hm => by
    have := (waiting i).2 hm
    simp [draining] at this
  by_cases hs : (s.win i).scrub = false
  · rw [if_pos hs] at turned
    have engine : (drained i s).scrub = s.scrub := by simp [drained, hs]
    exact scrubMatches_of_engine (by rw [engine]) (by rw [engine])
      (turned.all (P := fun j w => w.phase = .scrubWait ↔ (s.win j).phase = .scrubWait)
        (by simp [Window.cleared, draining]) fun _ _ => Iff.rfl)
      (turned.all (P := fun j w => w.phase = .scrubbing ↔ (s.win j).phase = .scrubbing)
        (by simp [Window.cleared, draining]) fun _ _ => Iff.rfl)
      (turned.all (P := fun j w => (s.win j).phase = .scrubbing → w.sizeClass = (s.win j).sizeClass)
        (by simp [draining]) fun _ _ _ => rfl) h.scrub
  · rw [if_neg hs] at turned
    by_cases hi : s.scrub.state = .idle ∧ s.scrub.list = []
    · rw [if_pos hi] at turned
      have engine : (drained i s).scrub =
          { s.scrub with state := .running, progress := some ⟨i, 0, 2 ^ (s.win i).sizeClass.toNat⟩ } := by
        simp [drained, hs, hi]
      have noRecord := h.engine.1.1 hi.1
      obtain ⟨low, -⟩ := ((h.windows i).formed (by simp [draining])).sizeClass
      have groups : 2 ^ (s.win i).sizeClass.toNat = 4 * 2 ^ ((s.win i).sizeClass.toNat - 2) := by
        rw [show (4 : Nat) = 2 ^ 2 from rfl, ← pow_add]
        congr 1
        omega
      have some_group := Nat.pow_pos (n := (s.win i).sizeClass.toNat - 2) (show 0 < 2 by decide)
      rw [scrubMatches, engine]
      refine ⟨turned.all (P := fun j w => w.phase = .scrubWait ↔ j ∈ s.scrub.list) (by simp [notListed])
          fun j _ => waiting j, distinct,
        turned.all (P := fun j w => w.phase = .scrubbing ↔ some i = some j) (by simp) fun j hj => ?_, fun g hg => ?_⟩
      · rw [scrubbing j, noRecord]
        simpa using fun e : i = j => hj e.symm
      · cases hg
        rw [turned.self]
        refine ⟨rfl, ?_, ?_, ?_⟩ <;> simp only [groups] <;> omega
    · rw [if_neg hi] at turned
      have engine : (drained i s).scrub = { s.scrub with list := s.scrub.list ++ [i] } := by
        simp only [drained, hs, hi, if_false]; rfl
      rw [scrubMatches, engine]
      refine ⟨turned.all (P := fun j w => w.phase = .scrubWait ↔ j ∈ s.scrub.list ++ [i]) (by simp) fun j hj => ?_,
        ?_, turned.all (P := fun j w => w.phase = .scrubbing ↔ s.scrub.progress.map (·.window) = some j) ?_
          fun j _ => scrubbing j, fun g hg => ?_⟩
      · simp [waiting j, hj]
      · rw [List.nodup_append]
        exact ⟨distinct, by simp, fun a ha b hb e => notListed (by simp at hb; rwa [← hb, ← e])⟩
      · rw [← scrubbing i, draining]
        simp
      · have other : g.window ≠ i := fun e => by
          have := (scrubbing i).2 (by rw [hg, ← e]; rfl)
          simp [draining] at this
        rw [turned.other other]
        exact counts g hg

/-- A drain that stands at a count of 0 ends. -/
theorem Table.drained : Table none due (drained i s) :=
  ⟨engineMatches_drained i s h.engine, drained_windowOk h draining unbound,
    grantsApart_of_notGrown (drained_notGrown draining) h.grants,
    scrubsApart_of_notGrown (drained_notGrown draining) h.scrubs, drained_scopesCounted h draining,
    drained_scrubMatches h draining, drained_expiryOk h draining⟩

end Drained

/-! ## Retirements, lapses and expiries (R36, R79 to R81) -/

/-- A window retires, and its drain ends at once where no access is bound. -/
theorem Table.retired {due : List WinIdx} {i : WinIdx} {s : State} (h : Table none (i :: due) s)
    (live : changeable (s.win i)) : Table none due (retired i s) := by
  have self := (turned_withoutRights i .draining s).self
  have k := h.withoutRights live (ph := .draining) (.inr rfl)
  unfold Safety.retired
  split
  · rename_i bound
    exact k.noneIdle fun _ => by rw [self]; exact bound
  · rename_i unbound
    exact k.drained (by rw [self]) (by rw [self]; simpa using unbound)

/-- Attention is no part of the tables. -/
theorem Table.raise {idle : Option WinIdx} {due : List WinIdx} {s : State} (h : Table idle due s) (c : BitVec 5) :
    Table idle due (s.raise c) := h.same (fun _ => rfl) rfl rfl rfl rfl rfl rfl

theorem Table.lapsed {due : List WinIdx} {i : WinIdx} {s : State} (h : Table none (i :: due) s)
    (live : changeable (s.win i)) : Table none due (lapsed i s) := by
  unfold Safety.lapsed
  split
  · exact h.retired live
  · refine ((h.withoutRights live (ph := .lapsed) (.inl rfl)).noneIdle fun e => ?_).raise 4
    rw [(turned_withoutRights i .lapsed s).self] at e
    cases e

/-- A live window. -/
def Live (w : Window) : Prop := w.phase = .arming ∨ w.phase = .held ∨ w.phase = .taper

theorem Live.changeable {w : Window} (h : Live w) : changeable w := by
  rcases h with h | h | h
  · exact .inl h
  · exact .inr (.inl h)
  · exact .inr (.inr (.inl h))

theorem Table.expired {due : List WinIdx} {i : WinIdx} {s : State} (h : Table none (i :: due) s)
    (live : Live (s.win i)) : Table none due (expired s i) := by
  unfold Safety.expired
  split
  · exact h.inPhase live.changeable (.inl ⟨rfl, rfl⟩)
  · split
    · exact h.inPhase live.changeable (.inr ⟨rfl, rfl⟩)
    · exact h.lapsed live.changeable

end Sys2Proof.Tables
end

section
/-! PROOFS. Bindings, budgets and the Scrub Engine (spec/02 R37, R38; spec/04 R83; spec/08 R136 to R143): what each makes
of the tables. -/

namespace Sys2Proof.Tables
open Sys2Proof.Machine Sys2Proof.Safety

/-! ## Bindings and budgets -/

/-- A count of bound accesses is seen by the window alone. -/
theorem fits_inFlight {idle : Prop} {w : Window} {n : Nat} (ok : WindowOk idle { w with inFlight := n }) :
    Fits idle w { w with inFlight := n } :=
  ⟨ok, fun h => ⟨h, rfl, fun _ => id, rfl, rfl, rfl, rfl⟩, rfl, fun _ _ => id, Iff.rfl, Iff.rfl, fun _ => rfl, rfl,
    Iff.rfl⟩

/-- An access is bound to a window in force (R37, R63). -/
theorem Table.bindWindow {due : List WinIdx} {bound : Option WinIdx} {s : State} (h : Table none due s)
    (inForce : ∀ i, bound = some i → (s.win i).phase = .held ∨ (s.win i).phase = .taper) :
    Table none due (bindWindow bound s) := by
  cases bound with
  | none => exact h
  | some i =>
    have ph := inForce i rfl
    refine h.update (idle' := none) (turned_setWin fun _ => rfl) rfl rfl rfl rfl (fits_inFlight ?_) fun _ _ => id
    refine ⟨fun e => ?_, fun e => ?_, fun e => ?_, fun e => ?_⟩
    · rcases ph with k | k <;> simp [k] at e
    · obtain ⟨a, b, c, d, f, g, k⟩ := (h.windows i).formed e
      exact ⟨a, b, c, d, f, g, k⟩
    · rcases ph with k | k <;> simp [k] at e
    · rcases ph with k | k <;> simp [k] at e

/-- An access of a window ends; a drain that it brings to a count of 0 ends with it (R37, R38). -/
theorem Table.unbound {due : List WinIdx} {i : WinIdx} {s : State} (h : Table none due s) :
    Table none due (unbound i s) := by
  have ok := h.windows i
  have lowered : Table (some i) due (s.setWin i { s.win i with inFlight := (s.win i).inFlight - 1 }) := by
    refine h.update (idle' := some i) (turned_setWin fun _ => rfl) rfl rfl rfl rfl (fits_inFlight ?_)
      fun _ _ e => (by cases e)
    refine ⟨fun e => ?_, fun e => ?_, fun _ => .inr rfl, fun e => ?_⟩
    · rw [ok.free e]; rfl
    · obtain ⟨a, b, c, d, f, g, k⟩ := ok.formed e
      exact ⟨a, b, c, d, f, g, k⟩
    · simp [ok.quiet e]
  unfold Safety.unbound
  split
  · rename_i last
    refine lowered.drained ?_ ?_
    · simpa using last.1
    · rw [State.win_setWin_self]
      exact Nat.sub_eq_zero_of_le last.2
  · rename_i more
    refine lowered.noneIdle fun e => ?_
    rw [State.win_setWin_self] at e ⊢
    exact fun none => more ⟨e, Nat.le_of_sub_eq_zero none⟩

/-- A renew budget is seen by no table (R83). -/
theorem Table.budgeted {due : List WinIdx} {i : WinIdx} {s : State} (h : Table none due s) (budget : Code)
    (occupied : (s.win i).phase ≠ .free) :
    Table none due (s.setWin i { s.win i with renewBudget := budget }) := by
  have ok := h.windows i
  refine h.update (turned_setWin fun _ => rfl) rfl rfl rfl rfl
    ⟨⟨fun e => absurd e occupied, fun e => ?_, fun e => ?_, ok.quiet⟩,
      fun e => ⟨e, rfl, fun _ => id, rfl, rfl, rfl, rfl⟩, rfl, fun _ _ => id, Iff.rfl, Iff.rfl, fun _ => rfl, rfl,
      Iff.rfl⟩ fun _ _ => id
  · obtain ⟨a, b, c, d, f, g, k⟩ := ok.formed e
    exact ⟨a, b, c, d, f, g, k⟩
  · exact ok.draining e

/-! ## The Scrub Engine -/

/-- The engine held and resumed (R142, R143). -/
theorem Table.engineTurned {due : List WinIdx} {s : State} (h : Table none due s) {st : EngineState}
    (busy : s.scrub.state ≠ .idle) (busy' : st ≠ .idle) :
    Table none due { s with scrub := { s.scrub with state := st } } := by
  have record : s.scrub.progress ≠ none := fun e => busy (h.engine.1.2 e)
  exact ⟨⟨⟨fun e => absurd e busy', fun e => absurd e record⟩, fun e => absurd e busy'⟩, h.windows, h.grants, h.scrubs,
    h.scopes, h.scrub, expiryOk_of_clock (s := s) rfl rfl (fun _ => rfl) (fun _ => Iff.rfl) h.expiry⟩

/-- The window that is being scrubbed is the one of the progress record. -/
theorem scrubbing_of_progress {s : State} (h : scrubMatches s) {g : ScrubProgress} (hg : s.scrub.progress = some g) :
    (s.win g.window).phase = .scrubbing := (h.2.2.1 g.window).2 (by rw [hg]; rfl)

/-- A group of a fill is counted (R139). -/
theorem Table.groupCounted {due : List WinIdx} {s : State} (h : Table none due s) {g : ScrubProgress}
    (hg : s.scrub.progress = some g) (more : 4 < g.wordsRemaining) :
    Table none due { s with scrub := { s.scrub with
      progress := some ⟨g.window, g.nextOffset + 4, g.wordsRemaining - 4⟩ } } := by
  have busy : s.scrub.state ≠ .idle := fun e => by simp [h.engine.1.1 e] at hg
  obtain ⟨waiting, distinct, scrubbing, counts⟩ := h.scrub
  refine ⟨⟨⟨fun e => absurd e busy, fun e => by cases e⟩, fun e => absurd e busy⟩, h.windows, h.grants, h.scrubs,
    h.scopes, ⟨waiting, distinct, fun i => (scrubbing i).trans (by rw [hg]; rfl), fun k hk => ?_⟩,
    expiryOk_of_clock (s := s) rfl rfl (fun _ => rfl) (fun _ => Iff.rfl) h.expiry⟩
  · cases hk
    obtain ⟨offset, words, -, size⟩ := counts g hg
    refine ⟨?_, ?_, ?_, ?_⟩
    · show (g.nextOffset + 4) % 4 = 0; omega
    · show (g.wordsRemaining - 4) % 4 = 0; omega
    · show 4 ≤ g.wordsRemaining - 4; omega
    · show g.nextOffset + 4 + (g.wordsRemaining - 4) = 2 ^ (s.win g.window).sizeClass.toNat; omega

/-- The window of a complete fill is FREE and the engine has no record (R140). -/
def fillDone (i : WinIdx) (s : State) : State :=
  (({ s with scrub := { s.scrub with progress := none } } : State).setWin i Window.cleared).raise causeScrubDone

theorem fillComplete_eq (i : WinIdx) (s : State) : fillComplete i s = match s.scrub.list with
    | [] => { fillDone i s with scrub := { (fillDone i s).scrub with state := .idle } }
    | _ :: _ => scrubTake (fillDone i s) := rfl

theorem turned_fillDone (i : WinIdx) (s : State) : Turned i Window.cleared s (fillDone i s) :=
  turned_setWin fun _ => rfl

section FillDone
variable {due : List WinIdx} {s : State} (h : Table none due s) {g : ScrubProgress} (hg : s.scrub.progress = some g)
include h hg


/-- A window that is scrubbed stands in no other table than the engine's: it can be cleared. -/
theorem fillDone_tables : (∀ i, WindowOk (none = some i) ((fillDone g.window s).win i)) ∧
    grantsApart (fillDone g.window s) ∧ scrubsApart (fillDone g.window s) ∧ scopesCounted (fillDone g.window s) ∧
    ExpiryOk due (fillDone g.window s) := by
  have ph := scrubbing_of_progress h.scrub hg
  have turned := turned_fillDone g.window s
  have refs := scopeRefs_of_idle h.scopes (i := g.window) (by simp [ph])
  have untimed : ¬ timedPhase (s.win g.window) := by simp [timedPhase, ph]
  have deadline : (s.win g.window).deadline = none := by
    simpa [Option.isSome_iff_ne_none, untimed] using (h.expiry.timed g.window).not
  refine ⟨turned.windowsOk (P := fun j => none = some j) (Q := fun j => none = some j)
      ⟨fun _ => rfl, fun e => absurd rfl e, fun e => (by cases e), fun _ => rfl⟩ h.windows fun _ _ => id,
    grantsApart_of_notGrown (turned.notGrown fun e => absurd rfl e) h.grants,
    scrubsApart_of_notGrown (turned.notGrown fun e => absurd rfl e) h.scrubs,
    scopesCounted_of_stacks (s := s) rfl
      (turned.all (P := fun j w => w.scopeRefs = (s.win j).scopeRefs) refs.symm fun _ _ => rfl)
      (turned.all (P := fun j w => ∀ p f, Backs (s.win j) p f → Backs w p f)
        (fun p f b => by simp [Backs, ph] at b) fun _ _ _ _ => id) h.scopes,
    expiryOk_of_clock (s := s) rfl rfl
      (turned.all (P := fun j w => w.deadline = (s.win j).deadline) deadline.symm fun _ _ => rfl)
      (turned.all (P := fun j w => timedPhase w ↔ timedPhase (s.win j)) (by simp [timedPhase, Window.cleared, ph])
        fun _ _ => Iff.rfl) h.expiry⟩

/-- The last fill leaves the engine IDLE (R140). -/
theorem Table.fillIdle (list : s.scrub.list = []) :
    Table none due { fillDone g.window s with scrub := { (fillDone g.window s).scrub with state := .idle } } := by
  have ph := scrubbing_of_progress h.scrub hg
  have turned := turned_fillDone g.window s
  obtain ⟨windows, grants, scrubs, scopes, expiry⟩ := fillDone_tables h hg
  obtain ⟨waiting, distinct, scrubbing, -⟩ := h.scrub
  refine ⟨⟨⟨fun _ => rfl, fun _ => rfl⟩, fun _ => list⟩, windows, grants, scrubs, scopes,
    ⟨?_, distinct, ?_, fun k hk => (by cases hk)⟩,
    expiryOk_of_clock (s := fillDone g.window s) rfl rfl (fun _ => rfl) (fun _ => Iff.rfl) expiry⟩
  · refine turned.all (P := fun j w => w.phase = .scrubWait ↔ j ∈ s.scrub.list) ?_ fun j _ => waiting j
    simp [Window.cleared, list]
  · refine turned.all (P := fun j w => w.phase = .scrubbing ↔ none = some j) (by simp [Window.cleared]) fun j hj => ?_
    rw [scrubbing j, hg]
    simpa using fun e : g.window = j => hj e.symm

/-- Another fill follows: the head of the list is taken (R138, R140). -/
theorem Table.fillNext {j : WinIdx} {rest : List WinIdx} (list : s.scrub.list = j :: rest) :
    Table none due (scrubTake (fillDone g.window s)) := by
  have ph := scrubbing_of_progress h.scrub hg
  obtain ⟨windows, grants, scrubs, scopes, expiry⟩ := fillDone_tables h hg
  obtain ⟨waiting, distinct, scrubbing, -⟩ := h.scrub
  have busy : s.scrub.state ≠ .idle := fun e => by simp [h.engine.1.1 e] at hg
  have waits : (s.win j).phase = .scrubWait := (waiting j).2 (by simp [list])
  have other : j ≠ g.window := fun e => by rw [e, ph] at waits; cases waits
  have self := (turned_fillDone g.window s).other other
  have ok := h.windows j
  have formed := ok.formed (by simp [waits])
  obtain ⟨low, -⟩ := formed.sizeClass
  have groups : 2 ^ (s.win j).sizeClass.toNat = 4 * 2 ^ ((s.win j).sizeClass.toNat - 2) := by
    rw [show (4 : Nat) = 2 ^ 2 from rfl, ← pow_add]
    congr 1
    omega
  have some_group := Nat.pow_pos (n := (s.win j).sizeClass.toNat - 2) (show 0 < 2 by decide)
  obtain ⟨notLater, laterDistinct⟩ := List.nodup_cons.1 (list ▸ distinct)
  have taken : scrubTake (fillDone g.window s) = ({ fillDone g.window s with scrub := { s.scrub with
      list := rest, progress := some ⟨j, 0, (s.win j).size⟩ } } : State).setWin j
        { s.win j with phase := .scrubbing } := by
    have idle : (s.scrub.state == .idle) = false := by simpa using busy
    simp only [scrubTake, show (fillDone g.window s).scrub = { s.scrub with progress := none } from rfl, list, self,
      idle]
    rfl
  rw [taken]
  have turned : Turned j { s.win j with phase := .scrubbing } (fillDone g.window s)
      (({ fillDone g.window s with scrub := { s.scrub with
        list := rest, progress := some ⟨j, 0, (s.win j).size⟩ } } : State).setWin j
        { s.win j with phase := .scrubbing }) := turned_setWin fun _ => rfl
  have grown : NotGrown ((fillDone g.window s).win j) { s.win j with phase := .scrubbing } := by
    rw [self]
    exact ⟨by simp [waits], rfl, fun _ => id, rfl, rfl, rfl, rfl⟩
  refine ⟨⟨⟨fun e => absurd e busy, fun e => (by cases e)⟩, fun e => absurd e busy⟩,
    turned.windowsOk (P := fun j => none = some j) (Q := fun j => none = some j)
      ⟨fun e => (by cases e), fun _ => formed_rephased formed .scrubbing _ _, fun e => (by cases e),
        fun _ => ok.quiet (.inl waits)⟩ windows fun _ _ => id,
    grantsApart_of_notGrown (turned.notGrown fun _ => grown) grants,
    scrubsApart_of_notGrown (turned.notGrown fun _ => grown) scrubs,
    scopesCounted_of_stacks (s := fillDone g.window s) rfl
      (turned.all (P := fun k w => w.scopeRefs = ((fillDone g.window s).win k).scopeRefs) (by rw [self]) fun _ _ => rfl)
      (turned.all (P := fun k w => ∀ p f, Backs ((fillDone g.window s).win k) p f → Backs w p f)
        (fun p f b => by rw [self] at b; simp [Backs, waits] at b) fun _ _ _ _ => id) scopes,
    ⟨?_, laterDistinct, ?_, fun k hk => ?_⟩,
    expiryOk_of_clock (s := fillDone g.window s) rfl rfl
      (turned.all (P := fun k w => w.deadline = ((fillDone g.window s).win k).deadline) (by rw [self]) fun _ _ => rfl)
      (turned.all (P := fun k w => timedPhase w ↔ timedPhase ((fillDone g.window s).win k))
        (by rw [self]; simp [timedPhase, waits]) fun _ _ => Iff.rfl) expiry⟩
  · refine turned.all (P := fun k w => w.phase = .scrubWait ↔ k ∈ rest) (by simp [notLater]) fun k hk => ?_
    refine (turned_fillDone g.window s).all (P := fun k w => k ≠ j → (w.phase = .scrubWait ↔ k ∈ rest)) (fun _ => ?_)
      (fun k _ hk => ?_) k hk
    · have : g.window ∉ s.scrub.list := fun hm => by
        have := (waiting g.window).2 hm
        simp [ph] at this
      rw [list] at this
      simpa [Window.cleared] using fun hm => this (List.mem_cons_of_mem _ hm)
    · rw [waiting k, list]; simp [hk]
  · refine turned.all (P := fun k w => w.phase = .scrubbing ↔ some j = some k) (by simp) fun k hk => ?_
    refine (turned_fillDone g.window s).all (P := fun k w => k ≠ j → (w.phase = .scrubbing ↔ some j = some k))
      (fun hk => ?_) (fun k hg' hk => ?_) k hk
    · simpa [Window.cleared] using fun e : j = g.window => hk e.symm
    · rw [scrubbing k, hg]
      have : ¬ g.window = k := fun e => hg' e.symm
      have : ¬ j = k := fun e => hk e.symm
      simp [*]
  · cases hk
    rw [turned.self]
    refine ⟨rfl, ?_, ?_, ?_⟩ <;> simp only [Window.size, classSize, groups] <;> omega

end FillDone

/-- A completed group of a fill keeps the tables (R130, R139, R140). -/
theorem Table.countGroup {due : List WinIdx} {s : State} (h : Table none due s) : Table none due (countGroup s) := by
  unfold Machine.countGroup
  cases hg : s.scrub.progress with
  | none => exact h
  | some g =>
    dsimp only
    split
    · rw [fillComplete_eq]
      cases list : s.scrub.list with
      | nil => exact h.fillIdle hg list
      | cons j rest => exact h.fillNext hg list
    · exact h.groupCounted hg (by omega)

end Sys2Proof.Tables
end

section
/-! PROOFS. Scope stacks and port sets (spec/02 R31, R34; spec/06 R111 to R118): frames pushed, popped and orphaned keep
the references equal to the live frames. -/

namespace Sys2Proof.Tables
open Sys2Proof.Machine Sys2Proof.Safety

/-! ## Windows whose phases and places stand -/

/-- From `v` to `w` a window keeps its phase, its place, its durations and its count of accesses. -/
structure Stays (v w : Window) : Prop where
  phase : w.phase = v.phase
  sizeClass : w.sizeClass = v.sizeClass
  durations : w.onset = v.onset ∧ w.hold = v.hold ∧ w.taper = v.taper
  deadline : w.deadline = v.deadline

/-- Such changes keep the tables where they keep the windows formed and apart, and the stacks in line. -/
theorem Table.stays {due : List WinIdx} {s t : State} (h : Table none due s) (stays : ∀ i, Stays (s.win i) (t.win i))
    (windows : ∀ i, WindowOk (none = some i) (t.win i)) (grants : grantsApart t) (scrubs : scrubsApart t)
    (scopes : scopesCounted t) (scrub : t.scrub = s.scrub) (clock : t.clock = s.clock) : Table none due t where
  engine := by unfold engineMatches; rw [scrub]; exact h.engine
  windows := windows
  grants := grants
  scrubs := scrubs
  scopes := scopes
  scrub := scrubMatches_of_engine (by rw [scrub]) (by rw [scrub]) (fun i => by rw [(stays i).phase])
    (fun i => by rw [(stays i).phase]) (fun i _ => (stays i).sizeClass) h.scrub
  expiry := expiryOk_of_clock (by rw [clock]) (by rw [clock]) (fun i => (stays i).deadline)
    (fun i => by
      obtain ⟨onset, hold, taper⟩ := (stays i).durations
      rw [timedPhase, (stays i).phase, onset, hold, taper]) h.expiry

/-! ## Frames pushed and removed -/

/-- Frames that come and go change the stacks and the scope references of windows, which stay equal to the live
frames. -/
theorem Table.restacked {due : List WinIdx} {s t : State} (h : Table none due s)
    (refs : ∀ i, t.win i = { s.win i with scopeRefs := liveFrames i t.scopes })
    (backs : ∀ p, ∀ f ∈ t.scopes.get p, f.orphan = false → Backs (s.win f.window) p f)
    (scrub : t.scrub = s.scrub) (clock : t.clock = s.clock) : Table none due t := by
  have scopes : scopesCounted t := (scopesCounted_iff t).2
    ⟨fun i => by rw [refs i], fun p f hf live => by rw [refs f.window]; exact backs p f hf live⟩
  refine h.stays (fun i => by rw [refs i]; exact ⟨rfl, rfl, ⟨rfl, rfl, rfl⟩, rfl⟩) (fun i => ?_)
    (grantsApart_of_notGrown (fun i hi => ?_) h.grants) (scrubsApart_of_notGrown (fun i hi => ?_) h.scrubs) scopes
    scrub clock
  · have ok := h.windows i
    have phase : (t.win i).phase = (s.win i).phase := by rw [refs i]
    have idle := scopeRefs_of_idle scopes (i := i)
    refine ⟨fun e => ?_, fun e => ?_, fun e => ?_, fun e => ?_⟩
    · have none := idle (by simp [e])
      rw [refs i] at none ⊢
      simp only at none
      rw [none, ok.free (phase ▸ e)]
      rfl
    · rw [refs i]
      exact formed_rephased (ok.formed (phase ▸ e)) (s.win i).phase (s.win i).deadline _
    · rw [phase] at e; rw [refs i]; exact ok.draining e
    · rw [phase] at e; rw [refs i]; exact ok.quiet e
  all_goals
    rw [refs i] at hi ⊢
    exact ⟨hi, rfl, fun _ => id, rfl, rfl, rfl, rfl⟩

/-- The references that a stack's change leaves. -/
theorem liveFrames_of_set {i : WinIdx} {scopes : PerPort (List Frame)} {p : Port} {l : List Frame} {n : Nat}
    (h : liveFrames i scopes + l.countP (countsFor i) = n + (scopes.get p).countP (countsFor i)) :
    liveFrames i (scopes.set p l) = n := by
  have := liveFrames_set i scopes p l
  omega

theorem mem_set_scopes {scopes : PerPort (List Frame)} {p q : Port} {l : List Frame} {f : Frame}
    (h : f ∈ (scopes.set p l).get q) : q = p ∧ f ∈ l ∨ f ∈ scopes.get q := by
  by_cases hq : q = p
  · subst hq
    rw [PerPort.get_set_self] at h
    exact .inl ⟨rfl, h⟩
  · rw [PerPort.get_set_ne _ _ hq] at h
    exact .inr h

/-- A live frame of a window in force is pushed (R111). -/
theorem Table.pushed {due : List WinIdx} {s : State} (h : Table none due s) {p : Port} {f : Frame}
    (live : f.orphan = false) (backs : Backs (s.win f.window) p f) : Table none due (pushed p f s) := by
  refine h.restacked (fun i => ?_) (fun q g hg hl => ?_) rfl rfl
  · have counted := ((scopesCounted_iff s).1 h.scopes).1 i
    have after : liveFrames i (Safety.pushed p f s).scopes = (s.win i).scopeRefs + if f.window = i then 1 else 0 := by
      refine liveFrames_of_set ?_
      rw [counted]
      have tested : countsFor i f = (f.window == i) := by simp [countsFor, live]
      simp only [List.countP_cons, tested, beq_iff_eq]
      omega
    have turned : Turned f.window { s.win f.window with scopeRefs := (s.win f.window).scopeRefs + 1 } s
        (Safety.pushed p f s) := turned_setWin fun _ => rfl
    rw [after, turned i]
    by_cases hi : i = f.window
    · subst hi; simp
    · rw [if_neg hi, if_neg (fun e => hi e.symm)]
      rfl
  · rcases mem_set_scopes hg with ⟨rfl, hm⟩ | hm
    · rcases List.mem_cons.1 hm with rfl | hm
      · exact backs
      · exact h.scopes.2 _ g hm hl
    · exact h.scopes.2 q g hm hl

/-- Frames that stand in a stack after some are gone stood there before. -/
theorem Table.framesGone {due : List WinIdx} {s t : State} (h : Table none due s) {p : Port} {l : List Frame}
    (scopes : t.scopes = s.scopes.set p l) (sub : ∀ f ∈ l, f ∈ s.scopes.get p)
    (refs : ∀ i, t.win i = { s.win i with
      scopeRefs := (s.win i).scopeRefs + l.countP (countsFor i) - (s.scopes.get p).countP (countsFor i) })
    (scrub : t.scrub = s.scrub) (clock : t.clock = s.clock) : Table none due t := by
  refine h.restacked (fun i => ?_) (fun q g hg hl => ?_) scrub clock
  · have counted := ((scopesCounted_iff s).1 h.scopes).1 i
    have after := liveFrames_set i s.scopes p l
    have fall : (s.win i).scopeRefs + l.countP (countsFor i) - (s.scopes.get p).countP (countsFor i) =
        liveFrames i (s.scopes.set p l) := by omega
    rw [refs i, scopes, fall]
  · rw [scopes] at hg
    rcases mem_set_scopes hg with ⟨rfl, hm⟩ | hm
    · exact h.scopes.2 _ g (sub g hm) hl
    · exact h.scopes.2 q g hm hl

/-- A stack emptied (R117, R118). -/
theorem Table.emptyStack {due : List WinIdx} {s : State} (h : Table none due s) (p : Port) :
    Table none due (emptyStack p s) := by
  obtain ⟨scopes, refs, rest⟩ := emptyStack_eq p s
  exact h.framesGone scopes (by simp) (by simpa using refs) (by rw [rest]) (by rw [rest])

/-- The top frame popped (R112). -/
theorem Table.popped {due : List WinIdx} {s : State} (h : Table none due s) {p : Port} {f : Frame} {fs : List Frame}
    (stack : s.scopes.get p = f :: fs) : Table none due
      (if f.orphan then { s with scopes := s.scopes.set p fs }
        else lowerRef f.window { s with scopes := s.scopes.set p fs }) := by
  have sub : ∀ g ∈ fs, g ∈ s.scopes.get p := fun g hg => by rw [stack]; exact List.mem_cons_of_mem _ hg
  split
  · rename_i orphan
    refine h.framesGone rfl sub (fun i => ?_) rfl rfl
    have none : countsFor i f = false := by simp [countsFor, orphan]
    simp only [stack, List.countP_cons, none, if_false, Nat.add_sub_cancel, Bool.false_eq_true, Nat.add_zero]
    rfl
  · rename_i live
    refine h.framesGone rfl sub (fun i => ?_) rfl rfl
    have turned : Turned f.window { s.win f.window with scopeRefs := (s.win f.window).scopeRefs - 1 } s
        (lowerRef f.window { s with scopes := s.scopes.set p fs }) := turned_setWin fun _ => rfl
    rw [turned i]
    have count : countsFor i f = (f.window == i) := by simp [countsFor, live]
    simp only [stack, List.countP_cons, count, beq_iff_eq]
    by_cases hi : i = f.window
    · subst hi
      simp only [if_true, Window.mk.injEq, true_and, and_true]
      omega
    · rw [if_neg hi, if_neg (fun e => hi e.symm)]
      simp

/-! ## Port sets replaced (R31, R34, R113) -/

/-- Port `p` was a holder and is not in the new set. -/
abbrev removed (old new : PortSet) (p : Port) : Prop := hasPort old p = true ∧ hasPort new p = false

/-- The live frames that name window `i` on the stacks of the ports in `l` that the new set leaves out. -/
def framesOf (i : WinIdx) (old new : PortSet) (scopes : PerPort (List Frame)) (l : List Port) : Nat :=
  (l.map fun p => if removed old new p then (scopes.get p).countP (countsFor i) else 0).sum

/-- Window `i`'s frames are orphaned on the stacks of removed ports, and its references fall by the live ones. -/
structure Orphaned (i : WinIdx) (old new : PortSet) (l : List Port) (s t : State) : Prop where
  frames : ∀ p, t.scopes.get p =
    if p ∈ l ∧ removed old new p then (s.scopes.get p).map (orphanedFrame i) else s.scopes.get p
  self : t.win i = { s.win i with scopeRefs := (s.win i).scopeRefs - framesOf i old new s.scopes l }
  others : ∀ j, j ≠ i → t.win j = s.win j
  rest : t = { s with windows := t.windows, scopes := t.scopes }

theorem framesOf_congr {i : WinIdx} {old new : PortSet} {x y : PerPort (List Frame)} {l : List Port}
    (h : ∀ p ∈ l, x.get p = y.get p) : framesOf i old new x l = framesOf i old new y l := by
  unfold framesOf
  congr 1
  refine List.map_congr_left fun p hp => ?_
  rw [h p hp]

/-- The frames of removed ports orphaned, port by port (R31). -/
theorem orphaned_foldl (i : WinIdx) (old new : PortSet) {l : List Port} (distinct : l.Nodup) (s : State) :
    Orphaned i old new l s (l.foldl (orphanRemoved i old new) s) := by
  induction l generalizing s with
  | nil => exact ⟨fun p => by simp, by simp [framesOf], fun _ _ => rfl, rfl⟩
  | cons p l ih =>
    obtain ⟨new_p, distinct⟩ := List.nodup_cons.1 distinct
    obtain ⟨frames, self, others, rest⟩ := ih distinct (orphanRemoved i old new s p)
    by_cases hr : removed old new p
    · have step : orphanRemoved i old new s p = orphanPort i p s := by simp [orphanRemoved, hr]
      have turned : Turned i { s.win i with
          scopeRefs := (s.win i).scopeRefs - (s.scopes.get p).countP (countsFor i) } s (orphanPort i p s) :=
        turned_setWin fun _ => rfl
      have scopes : (orphanPort i p s).scopes = s.scopes.set p ((s.scopes.get p).map (orphanedFrame i)) := by
        rw [← orphanOn_eq]; rfl
      simp only [List.foldl_cons]
      rw [step] at frames self others rest ⊢
      refine ⟨fun q => ?_, ?_, fun j hj => (others j hj).trans (turned.other hj), rest.trans rfl⟩
      · rw [frames q, scopes]
        by_cases hq : q = p
        · subst hq; simp [new_p, hr]
        · rw [PerPort.get_set_ne _ _ hq]; simp [hq]
      · rw [self, turned.self]
        have later : framesOf i old new (orphanPort i p s).scopes l = framesOf i old new s.scopes l :=
          framesOf_congr fun q hq => by
            rw [scopes, PerPort.get_set_ne]
            rintro rfl
            exact new_p hq
        rw [later]
        simp only [framesOf, List.map_cons, List.sum_cons, if_pos hr, Nat.sub_sub]
    · have step : orphanRemoved i old new s p = s := by
        have : (hasPort old p && !hasPort new p) = false := by
          rw [Bool.eq_false_iff]
          simpa [removed] using hr
        simp [orphanRemoved, this]
      simp only [List.foldl_cons]
      rw [step] at frames self others rest ⊢
      refine ⟨fun q => ?_, ?_, others, rest⟩
      · rw [frames q]
        by_cases hq : q = p
        · subst hq; simp [hr]
        · simp [hq]
      · rw [self]
        simp only [framesOf, List.map_cons, List.sum_cons, if_neg hr, Nat.zero_add]

theorem mem_allPorts (p : Port) : p ∈ allPorts := by cases p <;> decide

/-- After the orphaning the live frames of every window are what its references fall to. -/
theorem Orphaned.liveFrames {i : WinIdx} {old new : PortSet} {s t : State} (h : Orphaned i old new allPorts s t)
    (j : WinIdx) : liveFrames j t.scopes = if j = i then Tables.liveFrames i s.scopes - framesOf i old new s.scopes allPorts
      else Tables.liveFrames j s.scopes := by
  have count (p : Port) : (t.scopes.get p).countP (countsFor j) =
      if j = i ∧ removed old new p then 0 else (s.scopes.get p).countP (countsFor j) := by
    rw [h.frames p]
    simp only [mem_allPorts, true_and]
    by_cases hr : removed old new p
    · rw [if_pos hr, countP_orphaned]
      by_cases hj : j = i <;> simp [hj, hr]
    · rw [if_neg hr, if_neg fun e => hr e.2]
  simp only [Tables.liveFrames, framesOf, count, allPorts, List.map_cons, List.map_nil, List.sum_cons, List.sum_nil]
  by_cases hj : j = i
  · subst hj
    have split (p : Port) : (if j = j ∧ removed old new p then 0 else (s.scopes.get p).countP (countsFor j)) +
        (if removed old new p then (s.scopes.get p).countP (countsFor j) else 0) =
          (s.scopes.get p).countP (countsFor j) := by
      by_cases hr : removed old new p
      · rw [if_pos ⟨rfl, hr⟩, if_pos hr, Nat.zero_add]
      · rw [if_neg fun e => hr e.2, if_neg hr, Nat.add_zero]
    have := split .a; have := split .b; have := split .c; have := split .d
    rw [if_pos rfl]
    omega
  · simp [hj]

/-- A window's port set replaced, and the fields an amendment gives it, with the frames of removed ports orphaned: the
tables are kept where the GRANTs stay apart (R31, R34). -/
theorem Table.holders {due : List WinIdx} {i : WinIdx} {new : PortSet} {s u t : State} (h : Table none due s)
    (orphaned : Orphaned i (s.win i).ports new allPorts s u) {w : Window}
    (hw : w = { u.win i with
      ports := new, rights := w.rights, writeLanes := w.writeLanes, lanePolicy := w.lanePolicy
      renewBudget := w.renewBudget, autoRetire := w.autoRetire })
    (turned : t = u.setWin i w) (occupied : (s.win i).phase ≠ .free) (some_port : new ≠ 0)
    (policy : (s.win i).kind = .fence → w.lanePolicy = .strict)
    (grants : grantsApart t) : Table none due t := by
  subst turned
  have self : (u.setWin i w).win i = w := State.win_setWin_self u i w
  have other (j : WinIdx) (hj : j ≠ i) : (u.setWin i w).win j = s.win j := by
    rw [State.win_setWin_ne _ _ hj, orphaned.others j hj]
  rw [orphaned.self] at hw
  have stays (j : WinIdx) : Stays (s.win j) ((u.setWin i w).win j) := by
    by_cases hj : j = i
    · subst hj; rw [self, hw]; exact ⟨rfl, rfl, ⟨rfl, rfl, rfl⟩, rfl⟩
    · rw [other j hj]; exact ⟨rfl, rfl, ⟨rfl, rfl, rfl⟩, rfl⟩
  refine h.stays stays (fun j => ?_) grants ?_ ?_ (by rw [orphaned.rest]; rfl) (by rw [orphaned.rest]; rfl)
  · by_cases hj : j = i
    · subst hj
      have ok := h.windows j
      obtain ⟨-, sizeClass, portBase, target, inSram, hold, fence⟩ := ok.formed occupied
      have phase : w.phase = (s.win j).phase := by rw [hw]
      have inFlight : w.inFlight = (s.win j).inFlight := by rw [hw]
      rw [self]
      refine ⟨fun e => absurd (phase ▸ e) occupied, fun _ => ?_, fun e => ?_, fun e => ?_⟩
      · have shape : w.ports = new ∧ w.sizeClass = (s.win j).sizeClass ∧ w.portBase = (s.win j).portBase ∧
            w.kind = (s.win j).kind ∧ w.target = (s.win j).target ∧ w.hold = (s.win j).hold ∧
            w.taper = (s.win j).taper ∧ w.scrub = (s.win j).scrub := by
          rw [hw]; exact ⟨rfl, rfl, rfl, rfl, rfl, rfl, rfl, rfl⟩
        obtain ⟨e1, e2, e3, e4, e5, e6, e7, e8⟩ := shape
        refine ⟨e1 ▸ some_port, e2 ▸ sizeClass, by rw [e2, e3]; exact portBase, by rw [e4, e5]; exact target,
          by rw [e2, e5]; exact inSram, e6 ▸ hold, fun k => ?_⟩
        rw [e4] at k
        obtain ⟨taper, scrub, -⟩ := fence k
        exact ⟨e7.trans taper, e8.trans scrub, policy k⟩
      · rw [phase] at e; rw [inFlight]; exact ok.draining e
      · rw [phase] at e; rw [inFlight]; exact ok.quiet e
    · rw [other j hj]; exact h.windows j
  · intro j k a b hjk hj hk hs ha hb
    have shape (x : WinIdx) : ((u.setWin i w).win x).phase = (s.win x).phase ∧
        ((u.setWin i w).win x).scrub = (s.win x).scrub ∧ ((u.setWin i w).win x).target = (s.win x).target ∧
        ((u.setWin i w).win x).sizeClass = (s.win x).sizeClass := by
      by_cases hx : x = i
      · subst hx; rw [self, hw]; exact ⟨rfl, rfl, rfl, rfl⟩
      · rw [other x hx]; exact ⟨rfl, rfl, rfl, rfl⟩
    obtain ⟨j1, j2, j3, j4⟩ := shape j
    obtain ⟨k1, -, k3, k4⟩ := shape k
    rw [j4, k4]
    exact h.scrubs j k a b hjk (j1 ▸ hj) (k1 ▸ hk) (j2 ▸ hs) (j3 ▸ ha) (k3 ▸ hb)
  · have counted := ((scopesCounted_iff s).1 h.scopes).1
    refine (scopesCounted_iff _).2 ⟨fun j => ?_, fun p f hf live => ?_⟩
    · rw [show (u.setWin i w).scopes = u.scopes from rfl, orphaned.liveFrames j]
      by_cases hj : j = i
      · subst hj
        rw [self, if_pos rfl, hw, ← counted j]
      · rw [other j hj, if_neg hj]
        exact counted j
    · rw [show (u.setWin i w).scopes = u.scopes from rfl, orphaned.frames p] at hf
      simp only [mem_allPorts, true_and] at hf
      by_cases hr : removed (s.win i).ports new p
      · rw [if_pos hr] at hf
        obtain ⟨g, hg, rfl⟩ := List.mem_map.1 hf
        obtain ⟨same, hne⟩ := orphanedFrame_of_live live
        rw [same] at live ⊢
        rw [other _ hne]
        exact h.scopes.2 p g hg live
      · rw [if_neg hr] at hf
        have backs := h.scopes.2 p f hf live
        by_cases hi : f.window = i
        · rw [hi] at backs ⊢
          obtain ⟨⟨hp, hk, hport⟩, inForce, base, size⟩ := backs
          have kept : hasPort new p = true := by
            by_contra e
            exact hr ⟨hport, by simpa using e⟩
          rw [self, hw]
          exact ⟨⟨hp, hk, kept⟩, inForce, base, size⟩
        · rw [other _ hi]
          exact backs

end Sys2Proof.Tables
end

section
/-! PROOFS. AMEND (spec/02 R30, R31): its checks in their order, and what the amendment leaves. -/

namespace Sys2Proof.Actions
open Sys2Proof.Machine Sys2Proof.Safety Sys2Proof.Tables

section Amend
variable {s : State} {i : WinIdx} {a : ActionRecord}

/-- With a new set of ports the GRANT shares a port and a port word with another occupied GRANT (R24, R30). -/
theorem amendOverlaps_iff (i : WinIdx) (ports : PortSet) (s : State) : amendOverlaps i ports s = true ↔
    (s.win i).kind = .grant ∧ ∃ (j : WinIdx) (p : Port), j ≠ i ∧ holdsGrant (s.win j) p ∧ hasPort ports p = true ∧
      (s.win j).portBase.toNat < (s.win i).portBase.toNat + 2 ^ (s.win i).sizeClass.toNat ∧
      (s.win i).portBase.toNat < (s.win j).portBase.toNat + 2 ^ (s.win j).sizeClass.toNat := by
  simp only [amendOverlaps, Bool.and_eq_true, beq_iff_eq, List.any_eq_true, bne_iff_ne, collides_iff, Window.size,
    classSize, allWindows, List.mem_finRange, true_and, exists_and_left]

theorem amendWindow_of_other (h : ¬ changeable (s.win i)) :
    amendWindow a i s = actionFailed s .wrongState (some i) := by
  have fixed : (s.win i).amendable = false := by
    rw [← Bool.not_eq_true, amendable_iff]
    exact h
  simp [amendWindow, fixed]

/-- An AMEND of a window that can be amended, by the checks that follow (R30). -/
theorem amendWindow_of_changeable (h : changeable (s.win i)) : amendWindow a i s =
    if a.ports = 0 then actionFailed s .badGeometry (some i)
    else if amendOverlaps i a.ports s then actionFailed s .overlap (some i)
    else actionDone (applyAmend i a s) (some i) := by
  simp [amendWindow, (amendable_iff _).2 h]

/-- What an amendment leaves, block by block (R31). -/
theorem applyAmend_eq (i : WinIdx) (a : ActionRecord) (s : State) :
    (applyAmend i a s).win i = { s.win i with
      ports := a.ports
      rights := a.rights
      writeLanes := a.writeLanes
      lanePolicy := if (s.win i).kind = .grant then a.lanePolicy else .strict
      renewBudget := a.budget
      autoRetire := a.autoRetire
      scopeRefs := (s.win i).scopeRefs - framesOf i (s.win i).ports a.ports s.scopes allPorts } ∧
    (∀ p, (applyAmend i a s).scopes.get p =
      if hasPort (s.win i).ports p = true ∧ hasPort a.ports p = false then (s.scopes.get p).map (orphanedFrame i)
      else s.scopes.get p) ∧
    (∀ j, j ≠ i → (applyAmend i a s).win j = s.win j) ∧
    applyAmend i a s = { s with windows := (applyAmend i a s).windows, scopes := (applyAmend i a s).scopes } := by
  obtain ⟨frames, self, others, rest⟩ := orphaned_foldl i (s.win i).ports a.ports (l := allPorts) (by decide) s
  refine ⟨?_, fun p => (frames p).trans ?_, fun j hj => ?_, ?_⟩
  · simp only [applyAmend, State.win_setWin_self, self, Window.amend, beq_iff_eq]
  · simp only [mem_allPorts, true_and]
  · rw [applyAmend, State.win_setWin_ne _ _ hj, others j hj]
  · rw [applyAmend, rest]
    rfl

end Amend

/-- Settles O47, by the index, the phase, the ports and the overlap. -/
theorem amend : Obligations.Amend := by
  intro s stands
  refine ⟨fun outside => exec_action_failed rfl stands (onWindow_bad outside), fun i named =>
    ⟨fun other => ?_, fun live none => ?_, fun live some_port collides => ?_, fun live some_port alone => ?_⟩⟩
  · exact exec_action_failed rfl stands ((onWindow_of_eq named).trans (amendWindow_of_other (s := frameDone s) other))
  · exact exec_action_failed rfl stands ((onWindow_of_eq named).trans
      ((amendWindow_of_changeable (s := frameDone s) live).trans (if_pos none)))
  · have overlap := (amendOverlaps_iff i (record s).ports (frameDone s)).2 collides
    exact exec_action_failed rfl stands ((onWindow_of_eq named).trans
      ((amendWindow_of_changeable (s := frameDone s) live).trans ((if_neg some_port).trans (if_pos overlap))))
  · have apart : ¬ amendOverlaps i (record s).ports (frameDone s) = true := fun overlap =>
      alone ((amendOverlaps_iff i (record s).ports (frameDone s)).1 overlap)
    obtain ⟨self, frames, others, rest⟩ := applyAmend_eq i (record s) (frameDone s)
    refine ⟨_, exec_action rfl stands ((onWindow_of_eq named).trans ((amendWindow_of_changeable (s := frameDone s)
      live).trans ((if_neg some_port).trans (if_neg apart)))), ?_, self, frames, others, ?_⟩
    · rw [rest]; rfl
    · rw [rest]; rfl

end Sys2Proof.Actions
end

section
/-! PROOFS. Lease ticks (spec/04 R69, R78): what an expiry does to the other windows and to the expiry list, and the
expiries of a tick as those of the entries it reaches, in list order. -/

namespace Sys2Proof.Ticks
open Sys2Proof.Machine Sys2Proof.Safety Sys2Proof.Tables

/-! ## What a change of phase leaves -/

/-- Every window but `i` stands. -/
def OthersStand (i : WinIdx) (s t : State) : Prop := ∀ j, j ≠ i → t.win j = s.win j

theorem OthersStand.trans {i : WinIdx} {s t u : State} (h : OthersStand i s t) (k : OthersStand i t u) :
    OthersStand i s u := fun j hj => (k j hj).trans (h j hj)

theorem othersStand_of_turned {i : WinIdx} {w : Window} {s t : State} (h : Turned i w s t) : OthersStand i s t :=
  fun _ hj => h.other hj

theorem othersStand_retired (i : WinIdx) (s : State) : OthersStand i s (retired i s) := by
  have k := othersStand_of_turned (turned_withoutRights i .draining s)
  unfold retired
  split
  · exact k
  · exact k.trans (othersStand_of_turned (turned_drained i _))

theorem othersStand_lapsed (i : WinIdx) (s : State) : OthersStand i s (lapsed i s) := by
  unfold lapsed
  split
  · exact othersStand_retired i s
  · exact othersStand_of_turned (turned_withoutRights i .lapsed s)

/-- An expiry changes the window that expires alone. -/
theorem othersStand_expired (i : WinIdx) (s : State) : OthersStand i s (expired s i) := by
  unfold expired
  split
  · exact othersStand_of_turned (turned_inPhase i _ _ s)
  · split
    · exact othersStand_of_turned (turned_inPhase i _ _ s)
    · exact othersStand_lapsed i s

theorem engineMatches_retired (i : WinIdx) {s : State} (h : engineMatches s) : engineMatches (retired i s) := by
  unfold retired
  split
  · exact h
  · exact engineMatches_drained i _ h

theorem engineMatches_lapsed (i : WinIdx) {s : State} (h : engineMatches s) : engineMatches (lapsed i s) := by
  unfold lapsed
  split
  · exact engineMatches_retired i h
  · exact h

theorem engineMatches_expired (i : WinIdx) {s : State} (h : engineMatches s) : engineMatches (expired s i) := by
  unfold expired
  split
  · exact h
  · split
    · exact h
    · exact engineMatches_lapsed i h

/-! ## What a change of phase does to the expiry list -/

theorem clock_retired (i : WinIdx) (s : State) : (retired i s).clock =
    { s.clock with expiry := expiryAfter s.clock.time i none s.clock.expiry } := by
  unfold retired
  split
  · rfl
  · exact drained_clock i _

theorem clock_lapsed (i : WinIdx) (s : State) : (lapsed i s).clock =
    { s.clock with expiry := expiryAfter s.clock.time i none s.clock.expiry } := by
  unfold lapsed
  split
  · exact clock_retired i s
  · rfl

/-- The window that expires leaves the list, and may join it again with the deadline of a phase that begins. -/
theorem clock_expired (i : WinIdx) (s : State) : ∃ dl, (expired s i).clock =
      { s.clock with expiry := expiryAfter s.clock.time i dl s.clock.expiry } ∧
    ∀ d, dl = some d → ∃ c scale, deadlineOf s.clock.time c scale = some d := by
  unfold expired
  split
  · exact ⟨_, rfl, fun d hd => ⟨_, _, hd⟩⟩
  · split
    · exact ⟨_, rfl, fun d hd => ⟨_, _, hd⟩⟩
    · exact ⟨none, clock_lapsed i s, fun d hd => by cases hd⟩

/-! ## An expiry whose entry is already gone -/

theorem expiryAfter_filter (time : LeaseTime) (i : WinIdx) (dl : Option LeaseTime) (l : List Expiry) :
    expiryAfter time i dl (l.filter fun e => e.window != i) = expiryAfter time i dl l := by
  simp only [expiryAfter, List.filter_filter, Bool.and_self]

theorem win_removeExpiry (i : WinIdx) (s : State) :
    (removeExpiry i s).win i = { s.win i with deadline := none } := State.win_setWin_self _ _ _

theorem inPhase_removeExpiry (i : WinIdx) (ph : Phase) (c : Code) (s : State) :
    inPhase i ph c (removeExpiry i s) = inPhase i ph c s := by
  simp only [inPhase, win_removeExpiry]
  simp [removeExpiry, State.setWin, expiryAfter_filter]

theorem withoutRights_removeExpiry (i : WinIdx) (ph : Phase) (s : State) :
    withoutRights i ph (removeExpiry i s) = withoutRights i ph s := by
  simp only [withoutRights, win_removeExpiry]
  simp [removeExpiry, State.setWin, orphaned, List.filter_filter]

theorem retired_removeExpiry (i : WinIdx) (s : State) : retired i (removeExpiry i s) = retired i s := by
  simp only [retired, withoutRights_removeExpiry, win_removeExpiry]

theorem lapsed_removeExpiry (i : WinIdx) (s : State) : lapsed i (removeExpiry i s) = lapsed i s := by
  simp only [lapsed, withoutRights_removeExpiry, retired_removeExpiry, win_removeExpiry]

/-- An expiry is the same whether or not the window's entry has left the list. -/
theorem expired_removeExpiry (i : WinIdx) (s : State) : expired (removeExpiry i s) i = expired s i := by
  simp only [expired, inPhase_removeExpiry, lapsed_removeExpiry, win_removeExpiry]

/-- The expiry of the head of the list, of a live window. -/
theorem expireHead_eq {e : Expiry} {s : State} (engine : engineMatches s) (live : Live (s.win e.window)) :
    expireHead e s = expired s e.window := by
  have gone : engineMatches (removeExpiry e.window s) := engine
  rw [expireHead, expiryOf_eq _ _ gone (by rw [win_removeExpiry]; exact live), expired_removeExpiry]

/-! ## The expiries of a tick -/

/-- An entry whose deadline lies ahead goes behind the entries whose deadline is now. -/
theorem insertExpiry_behind (time : LeaseTime) (e : Expiry) {front : List Expiry} (back : List Expiry)
    (h : ∀ x ∈ front, remaining time x.deadline = 0) :
    insertExpiry time e (front ++ back) = front ++ insertExpiry time e back := by
  induction front with
  | nil => rfl
  | cons x front ih =>
    have first := h x List.mem_cons_self
    have rest := ih fun y hy => h y (List.mem_cons_of_mem _ hy)
    rw [List.cons_append, insertExpiry, if_pos (by omega), rest, List.cons_append]

/-- The list splits into the entries a lease time reaches, each at its deadline and of a live window, and later ones. -/
structure Splits (s : State) (reached later : List Expiry) : Prop where
  list : s.clock.expiry = reached ++ later
  now : ∀ e ∈ reached, remaining s.clock.time e.deadline = 0
  live : ∀ e ∈ reached, Live (s.win e.window)
  distinct : (reached.map (·.window)).Nodup
  later : ∀ e ∈ later, deadlineReached s.clock.time e.deadline = false

theorem not_reached_of_deadlineOf {time d : LeaseTime} {c : Code} {scale : BitVec 2}
    (h : deadlineOf time c scale = some d) : deadlineReached time d = false := by
  obtain ⟨ahead, near⟩ := remaining_of_deadlineOf h
  exact deadlineReached_of_ahead ahead (by omega)

/-- The first reached entry expires: the others are reached as before, and no other is. -/
theorem Splits.expired {s : State} {e : Expiry} {reached later : List Expiry} (h : Splits s (e :: reached) later) :
    ∃ later', Splits (expired s e.window) reached later' := by
  obtain ⟨dl, clock, made⟩ := clock_expired e.window s
  obtain ⟨fresh, distinct⟩ := List.nodup_cons.1 (List.map_cons ▸ h.distinct)
  have kept : reached.filter (fun x => x.window != e.window) = reached :=
    List.filter_eq_self.2 fun x hx => by
      have : x.window ≠ e.window := fun k => fresh (k ▸ List.mem_map_of_mem hx)
      simpa using this
  have now : ∀ x ∈ reached, remaining s.clock.time x.deadline = 0 := fun x hx => h.now x (List.mem_cons_of_mem _ hx)
  have list : s.clock.expiry.filter (fun x => x.window != e.window) =
      reached ++ later.filter fun x => x.window != e.window := by
    rw [h.list, List.cons_append, List.filter_cons_of_neg (by simp), List.filter_append, kept]
  have still : ∀ x ∈ later.filter (fun x => x.window != e.window), deadlineReached s.clock.time x.deadline = false :=
    fun x hx => h.later x (List.mem_filter.1 hx).1
  have live : ∀ x ∈ reached, Live ((Safety.expired s e.window).win x.window) := fun x hx => by
    rw [othersStand_expired e.window s x.window fun k => fresh (k ▸ List.mem_map_of_mem hx)]
    exact h.live x (List.mem_cons_of_mem _ hx)
  cases dl with
  | none =>
    exact ⟨_, by rw [clock]; exact list, by rw [clock]; exact now, live, distinct, by rw [clock]; exact still⟩
  | some d =>
    obtain ⟨c, scale, hd⟩ := made d rfl
    refine ⟨insertExpiry s.clock.time ⟨e.window, d⟩ (later.filter fun x => x.window != e.window), ?_,
      by rw [clock]; exact now, live, distinct, ?_⟩
    · have inserted : expiryAfter s.clock.time e.window (some d) s.clock.expiry =
          reached ++ insertExpiry s.clock.time ⟨e.window, d⟩ (later.filter fun x => x.window != e.window) := by
        rw [expiryAfter_some, list, insertExpiry_behind _ _ _ now]
      rw [clock]
      exact inserted
    · rw [clock]
      intro x hx
      rcases List.mem_cons.1 ((insertExpiry_perm _ _ _).mem_iff.1 hx) with rfl | hx
      · exact not_reached_of_deadlineOf hd
      · exact still x hx

/-- The expiries of a tick are those of the entries it reaches, in list order (R78). -/
theorem expireReached_eq {s : State} {reached later : List Expiry} (h : Splits s reached later)
    (engine : engineMatches s) (n : Nat) (enough : reached.length ≤ n) :
    expireReached n s = (reached.map (·.window)).foldl expired s := by
  induction reached generalizing s later n with
  | nil =>
    cases n with
    | zero => rfl
    | succ n =>
      have list : s.clock.expiry = later := h.list
      cases later with
      | nil => simp [expireReached, list]
      | cons e later => simp [expireReached, list, h.later e List.mem_cons_self]
  | cons e reached ih =>
    cases n with
    | zero => simp at enough
    | succ n =>
      obtain ⟨later', next⟩ := h.expired
      have first : deadlineReached s.clock.time e.deadline = true :=
        deadlineReached_of_remaining_zero (h.now e List.mem_cons_self)
      have one : expireReached (n + 1) s = expireReached n (expireHead e s) := by
        rw [expireReached, h.list]
        exact if_pos first
      rw [one, expireHead_eq engine (h.live e List.mem_cons_self), List.map_cons, List.foldl_cons]
      exact ih next (engineMatches_expired _ engine) n (by simpa using enough)

/-- A tick is the advance of lease time and the expiries of the entries it reaches (R78). -/
theorem leaseTick_eq {s : State} {reached later : List Expiry} (h : Splits (advanceTime s) reached later)
    (engine : engineMatches s) :
    leaseTick s = (reached.map (·.window)).foldl expired (advanceTime s) :=
  expireReached_eq h engine _ (by rw [h.list, List.length_append]; omega)

/-! ## Ticks of tables in line -/

/-- The entries a lease time reaches stand first. -/
def reachedAt (time : LeaseTime) (l : List Expiry) : List Expiry := l.takeWhile fun e => deadlineReached time e.deadline

theorem live_of_timed {w : Window} (h : timedPhase w) : Live w := by
  rcases h with h | h | h
  · exact .inl h.1
  · exact .inr (.inl h.1)
  · exact .inr (.inr h.1)

/-- A window of the expiry list is live (R75). -/
theorem live_of_listed {due : List WinIdx} {s : State} (h : ExpiryOk due s) {e : Expiry} (he : e ∈ s.clock.expiry) :
    Live (s.win e.window) :=
  live_of_timed ((h.timed _).1 (by rw [(h.listed e.window e.deadline).2 he]; rfl))

/-- Between ticks every deadline is at least one tick ahead: the next tick reaches it exactly where it is the next lease
time. -/
theorem reached_next {s : State} (h : ExpiryOk [] s) {e : Expiry} (he : e ∈ s.clock.expiry) :
    deadlineReached (s.clock.time + 1) e.deadline = true ↔ remaining (s.clock.time + 1) e.deadline = 0 := by
  have ahead := (h.ahead e he).resolve_right (by simp)
  have near := h.near e he
  have next := remaining_tick ahead
  refine ⟨fun reached => ?_, deadlineReached_of_remaining_zero⟩
  by_contra more
  rw [deadlineReached_of_ahead (by omega) (by omega)] at reached
  cases reached

/-- The list at a tick: sorted by remaining time, it has the entries that the tick reaches first. -/
theorem splits_of_table {s : State} (h : Table none [] s) : Splits (advanceTime s)
    (reachedAt (s.clock.time + 1) s.clock.expiry)
    (s.clock.expiry.dropWhile fun e => deadlineReached (s.clock.time + 1) e.deadline) where
  list := List.takeWhile_append_dropWhile.symm
  now e he := (reached_next h.expiry ((List.takeWhile_sublist _).subset he)).1
    (List.mem_takeWhile_imp (p := fun e : Expiry => deadlineReached (s.clock.time + 1) e.deadline) he)
  live e he := live_of_listed h.expiry ((List.takeWhile_sublist _).subset he)
  distinct := h.expiry.distinct.sublist ((List.takeWhile_sublist _).map _)
  later e he := by
    have member := (List.dropWhile_sublist _).subset he
    have sorted := h.expiry.sorted.sublist (List.dropWhile_sublist fun e => deadlineReached (s.clock.time + 1) e.deadline)
    cases hd : s.clock.expiry.dropWhile (fun e => deadlineReached (s.clock.time + 1) e.deadline) with
    | nil => rw [hd] at he; cases he
    | cons x xs =>
      have hx : x ∈ s.clock.expiry := (List.dropWhile_sublist _).subset (hd ▸ List.mem_cons_self)
      have first : ¬ deadlineReached (s.clock.time + 1) x.deadline = true := by
        have := List.head?_dropWhile_not (fun e : Expiry => deadlineReached (s.clock.time + 1) e.deadline) s.clock.expiry
        rw [hd] at this
        exact Bool.eq_false_iff.1 this
      rw [hd] at he sorted
      change deadlineReached (s.clock.time + 1) e.deadline = false
      rw [reached_next h.expiry hx] at first
      have ahead : ∀ y ∈ s.clock.expiry, 1 ≤ remaining s.clock.time y.deadline := fun y hy =>
        (h.expiry.ahead y hy).resolve_right (by simp)
      have nx := remaining_tick (ahead x hx)
      have ne := remaining_tick (ahead e member)
      have le : remaining s.clock.time x.deadline ≤ remaining s.clock.time e.deadline := by
        rcases List.mem_cons.1 he with rfl | hm
        · exact le_refl _
        · exact (List.pairwise_cons.1 sorted).1 e hm
      exact Bool.eq_false_iff.2 fun k => by
        have := (reached_next h.expiry member).1 k
        omega

/-- A tick of tables in line is the record update `ticked`. -/
theorem leaseTick_eq_ticked {s : State} (h : Table none [] s) : leaseTick s = ticked s :=
  leaseTick_eq (splits_of_table h) h.engine

/-- Expiries of distinct live windows, one after the other, keep the tables. -/
theorem table_expiries {l due : List WinIdx} (distinct : l.Nodup) {s : State} (h : Table none (l ++ due) s)
    (live : ∀ i ∈ l, Live (s.win i)) : Table none due (l.foldl expired s) := by
  induction l generalizing s with
  | nil => exact h
  | cons i l ih =>
    obtain ⟨fresh, rest⟩ := List.nodup_cons.1 distinct
    refine ih rest (h.expired (live i List.mem_cons_self)) fun j hj => ?_
    rw [othersStand_expired i s j fun k => fresh (k ▸ hj)]
    exact live j (List.mem_cons_of_mem _ hj)

/-- Lease time advanced, the windows that the tick reaches stand at their deadlines. -/
theorem table_advanced {s : State} (h : Table none [] s) :
    Table none ((reachedAt (s.clock.time + 1) s.clock.expiry).map (·.window)) (advanceTime s) where
  engine := h.engine
  windows := h.windows
  grants := h.grants
  scrubs := h.scrubs
  scopes := h.scopes
  scrub := h.scrub
  expiry := by
    have ahead : ∀ y ∈ s.clock.expiry, 1 ≤ remaining s.clock.time y.deadline := fun y hy =>
      (h.expiry.ahead y hy).resolve_right (by simp)
    refine ⟨h.expiry.timed, h.expiry.listed, h.expiry.distinct, ?_, fun e he => ?_, fun e he => ?_⟩
    · refine h.expiry.sorted.imp_of_mem fun {x y} hx hy le => ?_
      have nx := remaining_tick (ahead x hx)
      have ny := remaining_tick (ahead y hy)
      change remaining (s.clock.time + 1) _ ≤ remaining (s.clock.time + 1) _
      omega
    · have split := splits_of_table h
      have member : e ∈ s.clock.expiry := he
      rw [← List.takeWhile_append_dropWhile (p := fun e : Expiry => deadlineReached (s.clock.time + 1) e.deadline)
        (l := s.clock.expiry)] at member
      rcases List.mem_append.1 member with first | later
      · exact .inr (List.mem_map_of_mem first)
      · refine .inl ?_
        by_contra zero
        have := split.later e later
        rw [deadlineReached_of_remaining_zero (by omega)] at this
        cases this
    · have near := h.expiry.near e he
      have next := remaining_tick (ahead e he)
      change remaining (s.clock.time + 1) _ ≤ _
      omega

/-- A tick keeps the tables (R78). -/
theorem table_ticked {s : State} (h : Table none [] s) : Table none [] (leaseTick s) := by
  have split := splits_of_table h
  rw [leaseTick_eq split h.engine]
  refine table_expiries split.distinct ((List.append_nil _).symm ▸ table_advanced h) fun i hi => ?_
  obtain ⟨e, he, rfl⟩ := List.mem_map.1 hi
  exact split.live e he

end Sys2Proof.Ticks
end

section
/-! PROOFS. Expiries at a tick (spec/04 R78 to R81). -/

namespace Sys2Proof.Ticks
open Sys2Proof.Machine Sys2Proof.Safety Sys2Proof.Tables Sys2Proof.Deadlines

/-- A lease tick that is due is taken, with the grant decision that is due after it. -/
theorem exec_leaseTick_due {s : State} (run : running s) (due : tickNow s) :
    exec .leaseTick s = .next (grantDecision (leaseTick s)) := by
  have acts := clockActs_of_running run
  have tick : tickDue s = true := by simp [tickDue, due.1, due.2]
  exact congrArg Host.Outcome.next (if_pos (by rw [acts, tick]; rfl))

/-- The expiry event of a window that the next tick reaches first is that tick. -/
theorem expiryEvent_of_next {s : State} {ph : Phase} {i : WinIdx} {rest : List Expiry} (run : running s)
    (due : tickNow s) (first : s.clock.expiry = ⟨i, s.clock.time + 1⟩ :: rest) (phase : (s.win i).phase = ph) :
    expiryEvent ph i s = grantDecision (leaseTick s) := by
  have acts := clockActs_of_running run
  have tick : tickDue s = true := by simp [tickDue, due.1, due.2]
  have one : remaining s.clock.time (s.clock.time + 1) = 1 := remaining_add _ (by decide)
  have notYet : expiryDueAt s.clock.time ph i s = false := by
    rw [expiryDueAt, first]
    simp only [deadlineReached_of_ahead (Nat.le_of_eq one.symm) (by omega), Bool.and_false]
  have next : expiryDueAt (s.clock.time + 1) ph i s = true := by
    simp [expiryDueAt, first, phase, deadlineReached]
  unfold expiryEvent
  rw [acts, tick, notYet, next]
  rfl

/-- The entries whose deadline is the next lease time are those that the tick reaches. -/
theorem splits_of_next {s : State} {reached later : List Expiry} (list : s.clock.expiry = reached ++ later)
    (next : ∀ e ∈ reached, e.deadline = s.clock.time + 1 ∧ Live (s.win e.window))
    (distinct : (reached.map (·.window)).Nodup)
    (unreached : ∀ e ∈ later, deadlineReached (s.clock.time + 1) e.deadline = false) :
    Splits (advanceTime s) reached later where
  list := list
  now e he := by
    rw [(next e he).1]
    exact (congrArg BitVec.toNat (BitVec.sub_self _)).trans rfl
  live e he := (next e he).2
  distinct := distinct
  later := unreached

theorem expired_of_arming {s : State} {i : WinIdx} (h : (s.win i).phase = .arming) :
    expired s i = inPhase i .held (s.win i).hold s := if_pos h

theorem expired_of_tapering {s : State} {i : WinIdx} (h : (s.win i).phase = .held) (grant : (s.win i).kind = .grant)
    (taper : (s.win i).taper ≠ 0) : expired s i = inPhase i .taper (s.win i).taper s := by
  unfold expired
  rw [if_neg (by simp [h]), if_pos ⟨h, grant, taper⟩]

theorem expired_of_ending {s : State} {i : WinIdx} (h : (s.win i).phase = .held)
    (ends : (s.win i).kind = .fence ∨ (s.win i).taper = 0) : expired s i = lapsed i s := by
  rcases ends with k | k <;> simp [expired, h, k]

theorem expired_of_taper {s : State} {i : WinIdx} (h : (s.win i).phase = .taper) : expired s i = lapsed i s := by
  simp [expired, h]

/-- Settles O33, by the split of the expiry list into the entries that the tick reaches and later ones. -/
theorem expiries : Obligations.Expiries := by
  intro s u reached later run engine clocked period list next distinct unreached hu
  have due : tickNow s := ⟨clocked, period⟩
  have tick : leaseTick s = (reached.map (·.window)).foldl expired u :=
    hu ▸ leaseTick_eq (splits_of_next list next distinct unreached) engine
  have windows (i : WinIdx) : u.win i = s.win i := by subst hu; rfl
  refine ⟨by rw [exec_leaseTick_due run due, tick], fun i more first => ?_⟩
  have head : s.clock.expiry = ⟨i, s.clock.time + 1⟩ :: (more ++ later) := by rw [list, first]; rfl
  have event (ph : Phase) (phase : (s.win i).phase = ph) : expiryEvent ph i s =
      grantDecision ((more.map (·.window)).foldl expired (expired u i)) := by
    rw [expiryEvent_of_next run due head phase, tick, first]
    rfl
  rw [← windows i] at event ⊢
  exact ⟨fun h => (congrArg _ (event _ h)).trans (by rw [expired_of_arming h]),
    fun h grant taper => (congrArg _ (event _ h)).trans (by rw [expired_of_tapering h grant taper]),
    fun h ends => (congrArg _ (event _ h)).trans (by rw [expired_of_ending h ends]),
    fun h => (congrArg _ (event _ h)).trans (by rw [expired_of_taper h])⟩

end Sys2Proof.Ticks
end

section
/-! PROOFS. Windows created, amended and released (spec/02 R22 to R34): a creation that passes its checks, an amendment
and a holder's release keep the tables in line. -/

namespace Sys2Proof.Tables
open Sys2Proof.Machine Sys2Proof.Safety

/-! ## Creation -/

/-- A window that keeps off the port words of every GRANT it shares a port with keeps the GRANTs apart (R24). -/
theorem grantsApart_of_new {i : WinIdx} {w : Window} {s t : State} (turned : Turned i w s t)
    (apart : ∀ j p, j ≠ i → holdsGrant w p → holdsGrant (s.win j) p →
      apart w.portBase.toNat (2 ^ w.sizeClass.toNat) (s.win j).portBase.toNat (2 ^ (s.win j).sizeClass.toNat))
    (h : grantsApart s) : grantsApart t := by
  intro j k p hjk hj hk
  by_cases ji : j = i
  · subst ji
    rw [turned.self] at hj ⊢
    rw [turned.other hjk.symm] at hk ⊢
    exact apart k p hjk.symm hj hk
  · rw [turned.other ji] at hj ⊢
    by_cases ki : k = i
    · subst ki
      rw [turned.self] at hk ⊢
      exact (apart j p ji hk hj).symm
    · rw [turned.other ki] at hk ⊢
      exact h j k p hjk hj hk

/-- A window that keeps off the SRAM words of every occupied window, where one of the two is to be scrubbed, keeps the
scrub flags apart (R25). -/
theorem scrubsApart_of_new {i : WinIdx} {w : Window} {s t : State} (turned : Turned i w s t)
    (apart : ∀ j a b, j ≠ i → (s.win j).phase ≠ .free → w.scrub = true ∨ (s.win j).scrub = true →
      w.target = some a → (s.win j).target = some b →
      apart a.toNat (2 ^ w.sizeClass.toNat) b.toNat (2 ^ (s.win j).sizeClass.toNat))
    (h : scrubsApart s) : scrubsApart t := by
  intro j k a b hjk hj hk flag ha hb
  by_cases ji : j = i
  · subst ji
    rw [turned.self] at flag ha ⊢
    rw [turned.other hjk.symm] at hk hb ⊢
    exact apart k a b hjk.symm hk (.inl flag) ha hb
  · rw [turned.other ji] at hj flag ha ⊢
    by_cases ki : k = i
    · subst ki
      rw [turned.self] at hb ⊢
      exact (apart j b a ji hj (.inr flag) hb ha).symm
    · rw [turned.other ki] at hk hb ⊢
      exact h j k a b hjk hj hk flag ha hb

/-- What the checks of R23 leave of a window's operands. -/
structure Creatable (n : NewWindow) (s : State) : Prop where
  geometry : ¬ (n.ports = 0 ∨ n.sizeClass.toNat < 4 ∨ 20 < n.sizeClass.toNat ∨
    n.portBase.toNat % 2 ^ n.sizeClass.toNat ≠ 0 ∨ (n.kind = .grant ∧ n.target.toNat % 2 ^ n.sizeClass.toNat ≠ 0))
  envelope : ¬ (n.hold = 0 ∨ (n.kind = .fence ∧ n.taper ≠ 0) ∨ (n.kind = .fence ∧ n.scrub = true))
  inside : ¬ (n.kind = .grant ∧ 1048576 < n.target.toNat + 2 ^ n.sizeClass.toNat)
  apart : overlaps n s = false
  idle : targetBusy n s = false

theorem creatable_of_creationFault {n : NewWindow} {s : State} (h : creationFault n s = none) : Creatable n s := by
  unfold creationFault at h
  split at h
  · cases h
  rename_i geometry
  split at h
  · cases h
  rename_i envelope
  split at h
  · cases h
  rename_i inside
  split at h
  · cases h
  rename_i apart
  split at h
  · cases h
  rename_i idle
  exact ⟨fun k => geometry ((Actions.badGeometry_iff n).2 k), fun k => envelope ((Actions.badEnvelope_iff n).2 k),
    fun k => inside ((Actions.targetOutside_iff n).2 k), Bool.eq_false_iff.2 apart, Bool.eq_false_iff.2 idle⟩

/-- The record of a new window in its first phase. -/
def firstRecord (n : NewWindow) (time : LeaseTime) (ph : Phase) (c : Code) : Window :=
  { newRecord n with phase := ph, deadline := deadlineOf time c n.scale }

/-- A creation puts the record in and its deadline into the list (R26, R29). -/
theorem created_eq (i : WinIdx) (n : NewWindow) (s : State) : ∃ ph c,
    (ph = .held ∧ c = n.hold ∨ ph = .arming ∧ c = n.onset) ∧
    Turned i (firstRecord n s.clock.time ph c) s (created i n s) ∧
    (created i n s).scopes = s.scopes ∧ (created i n s).scrub = s.scrub ∧
    (created i n s).clock = { s.clock with
      expiry := expiryAfter s.clock.time i (deadlineOf s.clock.time c n.scale) s.clock.expiry } := by
  rw [← enterFirst_newRecord]
  have record : (s.setWin i (newRecord n)).win i = newRecord n := State.win_setWin_self _ _ _
  have turned (ph : Phase) (c : Code) :
      Turned i (firstRecord n s.clock.time ph c) s (inPhase i ph c (s.setWin i (newRecord n))) := fun j => by
    rw [turned_inPhase i ph c (s.setWin i (newRecord n)) j, record]
    split
    · rfl
    · rename_i hj
      exact State.win_setWin_ne _ _ hj
  have clock (ph : Phase) (c : Code) : (inPhase i ph c (s.setWin i (newRecord n))).clock = { s.clock with
      expiry := expiryAfter s.clock.time i (deadlineOf s.clock.time c n.scale) s.clock.expiry } := by
    simp only [inPhase, record]
    rfl
  simp only [enterFirst, enterHeld_eq, enterPhase_eq, record]
  split
  · exact ⟨.held, n.hold, .inl ⟨rfl, rfl⟩, turned _ _, rfl, rfl, clock _ _⟩
  · exact ⟨.arming, n.onset, .inr ⟨rfl, rfl⟩, turned _ _, rfl, rfl, clock _ _⟩

section Creation
variable {n : NewWindow} {s : State} (h : Creatable n s) (time : LeaseTime) (ph : Phase) (c : Code)
include h

/-- The target of a new GRANT keeps its value in the SRAM's words (R22). -/
theorem target_firstRecord {a : SramAddr} (ha : (firstRecord n time ph c).target = some a) :
    n.kind = .grant ∧ a.toNat = n.target.toNat ∧ n.target.toNat + 2 ^ n.sizeClass.toNat ≤ 1048576 := by
  have target : (firstRecord n time ph c).target =
      if n.kind == .grant then some (n.target.setWidth 20) else none := rfl
  rw [target] at ha
  split at ha
  · rename_i grant
    have grant : n.kind = .grant := by simpa using grant
    have inside : n.target.toNat + 2 ^ n.sizeClass.toNat ≤ 1048576 := Nat.le_of_not_lt fun k => h.inside ⟨grant, k⟩
    have pos : 0 < 2 ^ n.sizeClass.toNat := Nat.pow_pos (by decide)
    cases ha
    refine ⟨grant, ?_, inside⟩
    rw [BitVec.toNat_setWidth]
    exact Nat.mod_eq_of_lt (by omega)
  · cases ha

/-- The checks form the window (R23). -/
theorem formed_firstRecord : Formed (firstRecord n time ph c) := by
  obtain ⟨ports, small, large, portBase, target⟩ := by simpa only [not_or] using h.geometry
  obtain ⟨hold, taper, scrub⟩ := by simpa only [not_or] using h.envelope
  refine ⟨ports, ⟨Nat.le_of_not_lt small, Nat.le_of_not_lt large⟩, not_not.1 portBase, ?_, fun a ha => ?_, hold,
    fun fence => ⟨?_, ?_, ?_⟩⟩
  · change n.kind = .grant ↔ (if n.kind == .grant then some (n.target.setWidth 20) else none : Option SramAddr).isSome
      = true
    by_cases grant : n.kind = .grant <;> simp [grant]
  · obtain ⟨grant, value, inside⟩ := target_firstRecord h time ph c ha
    rw [value]
    exact ⟨by_contra fun k => target ⟨grant, k⟩, inside⟩
  · exact by_contra fun k => taper ⟨fence, k⟩
  · exact Bool.eq_false_iff.2 fun k => scrub ⟨fence, k⟩
  · have fence : n.kind = .fence := fence
    exact if_neg (by simp [fence])

/-- The checks keep the window apart from the others (R24, R25). -/
theorem apart_firstRecord (j : WinIdx) {p : Port} (new : holdsGrant (firstRecord n time ph c) p)
    (old : holdsGrant (s.win j) p) :
    apart n.portBase.toNat (2 ^ n.sizeClass.toNat) (s.win j).portBase.toNat (2 ^ (s.win j).sizeClass.toNat) := by
  by_contra meet
  obtain ⟨left, right⟩ := not_or.1 meet
  exact Bool.eq_false_iff.1 h.apart ((Actions.overlaps_iff n s).2
    ⟨new.2.1, j, p, old, new.2.2, Nat.lt_of_not_le left, Nat.lt_of_not_le right⟩)

theorem targets_apart_firstRecord {j : WinIdx} {a b : SramAddr} (formed : Formed (s.win j))
    (occupied : (s.win j).phase ≠ .free) (flag : n.scrub = true ∨ (s.win j).scrub = true)
    (ha : (firstRecord n time ph c).target = some a) (hb : (s.win j).target = some b) :
    apart a.toNat (2 ^ n.sizeClass.toNat) b.toNat (2 ^ (s.win j).sizeClass.toNat) := by
  obtain ⟨grant, value, -⟩ := target_firstRecord h time ph c ha
  rw [value]
  by_contra meet
  obtain ⟨left, right⟩ := not_or.1 meet
  refine Bool.eq_false_iff.1 h.idle ((Actions.targetBusy_iff n s).2
    ⟨grant, j, occupied, formed.target.2 (by rw [hb]; rfl), ?_, ?_, flag⟩)
  · rw [hb]; exact Nat.lt_of_not_le left
  · rw [hb]; exact Nat.lt_of_not_le right

end Creation

/-- A creation that passes its checks keeps the tables (R23, R26, R29). -/
theorem Table.created {due : List WinIdx} {i : WinIdx} {n : NewWindow} {s : State} (h : Table none due s)
    (fine : creationFault n s = none) (free : (s.win i).phase = .free) : Table none due (created i n s) := by
  have able := creatable_of_creationFault fine
  have cleared := (h.windows i).free free
  obtain ⟨ph, c, first, turned, scopes, scrub, clock⟩ := created_eq i n s
  have formed := formed_firstRecord able s.clock.time ph c
  have phases : ph ≠ .free ∧ ph ≠ .draining ∧ ph ≠ .scrubWait ∧ ph ≠ .scrubbing := by
    rcases first with ⟨rfl, -⟩ | ⟨rfl, -⟩ <;> simp
  have timed : timedPhase (firstRecord n s.clock.time ph c) ↔ 1 ≤ c.toNat ∧ c.toNat ≤ 14 := by
    rcases first with ⟨rfl, rfl⟩ | ⟨rfl, rfl⟩ <;> simp [timedPhase, firstRecord, newRecord]
  refine ⟨by unfold engineMatches; rw [scrub]; exact h.engine,
    turned.windowsOk ⟨fun e => absurd e phases.1, fun _ => formed, fun e => absurd e phases.2.1,
      fun e => (e.elim (fun e => phases.2.2.1 e) (fun e => phases.2.2.2 e)).elim⟩ h.windows fun _ _ => id,
    grantsApart_of_new turned (fun j p _ new old => apart_firstRecord able _ _ _ j new old) h.grants,
    scrubsApart_of_new turned (fun j a b _ occupied flag ha hb =>
      targets_apart_firstRecord able _ _ _ ((h.windows j).formed occupied) occupied flag ha hb) h.scrubs,
    scopesCounted_of_stacks scopes
      (turned.all (P := fun j w => w.scopeRefs = (s.win j).scopeRefs) (by rw [cleared]; rfl) fun _ _ => rfl)
      (turned.all (P := fun j w => ∀ p f, Backs (s.win j) p f → Backs w p f)
        (fun p f b => absurd free b.1.1) fun _ _ _ _ => id) h.scopes,
    scrubMatches_of_engine (by rw [scrub]) (by rw [scrub])
      (turned.all (P := fun j w => w.phase = .scrubWait ↔ (s.win j).phase = .scrubWait)
        (iff_of_false phases.2.2.1 (by simp [free])) fun _ _ => Iff.rfl)
      (turned.all (P := fun j w => w.phase = .scrubbing ↔ (s.win j).phase = .scrubbing)
        (iff_of_false phases.2.2.2 (by simp [free])) fun _ _ => Iff.rfl)
      (turned.all (P := fun j w => (s.win j).phase = .scrubbing → w.sizeClass = (s.win j).sizeClass)
        (fun e => by rw [free] at e; cases e) fun _ _ _ => rfl) h.scrub,
    (h.expiry.mono fun j hj => List.mem_cons_of_mem i hj).after turned (by rw [clock]) (by rw [clock]; rfl)
      ((deadlineOf_isSome _ _ _).trans timed.symm) fun _ hd => remaining_of_deadlineOf hd⟩

/-! ## Holders removed -/

/-- An amendment keeps the tables where the new port set meets no other GRANT (R30, R31). -/
theorem Table.amended {due : List WinIdx} {i : WinIdx} {a : ActionRecord} {s : State} (h : Table none due s)
    (can : changeable (s.win i)) (some_port : a.ports ≠ 0) (fine : amendOverlaps i a.ports s = false) :
    Table none due (applyAmend i a s) := by
  have occupied := occupied_of_changeable can
  have orphaned := orphaned_foldl i (s.win i).ports a.ports (l := allPorts) (by decide) s
  have kind : ((allPorts.foldl (orphanRemoved i (s.win i).ports a.ports) s).win i).kind = (s.win i).kind := by
    rw [orphaned.self]
  refine h.holders orphaned (w := ((allPorts.foldl (orphanRemoved i (s.win i).ports a.ports) s).win i).amend a)
    rfl rfl occupied some_port (fun fence => ?_) ?_
  · exact if_neg (by rw [kind, fence]; decide)
  · have turned : Turned i (((allPorts.foldl (orphanRemoved i (s.win i).ports a.ports) s).win i).amend a) s
        (applyAmend i a s) := fun j => by
      by_cases hj : j = i
      · subst hj
        exact (State.win_setWin_self _ _ _).trans (if_pos rfl).symm
      · exact ((State.win_setWin_ne _ _ hj).trans (orphaned.others j hj)).trans (if_neg hj).symm
    refine grantsApart_of_new turned (fun j p hj new old => ?_) h.grants
    rw [orphaned.self] at new ⊢
    by_contra meet
    obtain ⟨left, right⟩ := not_or.1 meet
    exact Bool.eq_false_iff.1 fine ((Actions.amendOverlaps_iff i a.ports s).2
      ⟨new.2.1, j, p, hj, old, new.2.2, Nat.lt_of_not_le left, Nat.lt_of_not_le right⟩)

/-- A holder that is not the last leaves: its frames alone are orphaned (R34). -/
theorem orphaned_withoutPort (i : WinIdx) (p : Port) (s : State) (holds : hasPort (s.win i).ports p = true) :
    Orphaned i (s.win i).ports (withoutPort (s.win i).ports p) allPorts s (orphanPort i p s) := by
  have gone (q : Port) : removed (s.win i).ports (withoutPort (s.win i).ports p) q ↔ q = p := by
    rw [removed, ControlWrites.hasPort_withoutPort]
    constructor
    · rintro ⟨had, none⟩
      by_contra other
      simp [had, other] at none
    · rintro rfl
      exact ⟨holds, by simp⟩
  have turned : Turned i { s.win i with
      scopeRefs := (s.win i).scopeRefs - (s.scopes.get p).countP (Frame.liveOn i) } s (orphanPort i p s) :=
    turned_setWin fun _ => rfl
  refine ⟨fun q => ?_, ?_, fun j hj => turned.other hj, rfl⟩
  · by_cases hq : q = p
    · subst hq
      rw [if_pos ⟨mem_allPorts q, (gone q).2 rfl⟩]
      simp [orphanPort, orphanOn_eq]
    · rw [if_neg fun k => hq ((gone q).1 k.2)]
      exact PerPort.get_set_ne _ _ hq
  · rw [turned.self]
    have count : framesOf i (s.win i).ports (withoutPort (s.win i).ports p) s.scopes allPorts =
        (s.scopes.get p).countP (countsFor i) := by
      simp only [framesOf, gone, allPorts]
      cases p <;> simp
    rw [count, liveOn_eq]

/-- A release that leaves other holders keeps the tables (R34). -/
theorem Table.left {due : List WinIdx} {i : WinIdx} {p : Port} {s : State} (h : Table none due s)
    (holds : holdsGrant (s.win i) p) (others : withoutPort (s.win i).ports p ≠ 0) :
    Table none due ((orphanPort i p s).setWin i
      { (orphanPort i p s).win i with ports := withoutPort (s.win i).ports p }) := by
  have orphaned := orphaned_withoutPort i p s holds.2.2
  refine h.holders orphaned rfl rfl holds.1 others (fun fence => ?_) ?_
  · rw [holds.2.1] at fence; cases fence
  · have turned : Turned i { (orphanPort i p s).win i with ports := withoutPort (s.win i).ports p } s
        ((orphanPort i p s).setWin i
          { (orphanPort i p s).win i with ports := withoutPort (s.win i).ports p }) := fun j => by
      by_cases hj : j = i
      · subst hj
        exact (State.win_setWin_self _ _ _).trans (if_pos rfl).symm
      · exact ((State.win_setWin_ne _ _ hj).trans (orphaned.others j hj)).trans (if_neg hj).symm
    refine grantsApart_of_notGrown (turned.notGrown fun _ => ?_) h.grants
    rw [orphaned.self]
    refine ⟨holds.1, rfl, fun q hq => ?_, rfl, rfl, rfl, rfl⟩
    have : hasPort (withoutPort (s.win i).ports p) q = true := hq
    rw [ControlWrites.hasPort_withoutPort, Bool.and_eq_true] at this
    exact this.1

end Sys2Proof.Tables
end

section
/-! PROOFS. Parts of an event that leave the ports, the sequencer, the recorder and the clock but for the expiry list:
the rules of spec/02, 04, 06 and 08 change the tables alone. -/

namespace Sys2Proof.Keeping
open Sys2Proof.Machine Sys2Proof.Safety Sys2Proof.Tables Sys2Proof.Ticks

/-! ## Ports, sequencer and recorder stand -/

/-- Ports, sequencer, fault recorder and clock but for the expiry list stand, and the engine stays in line with its
record. -/
structure PortsStand (s t : State) : Prop where
  piu : t.piu = s.piu
  seq : t.seq = s.seq
  faults : t.faults = s.faults
  clock : t.clock = { s.clock with expiry := t.clock.expiry }
  engine : engineMatches s → engineMatches t

theorem PortsStand.refl (s : State) : PortsStand s s := ⟨rfl, rfl, rfl, rfl, id⟩

theorem PortsStand.trans {s t u : State} (h : PortsStand s t) (k : PortsStand t u) : PortsStand s u :=
  ⟨k.piu.trans h.piu, k.seq.trans h.seq, k.faults.trans h.faults, k.clock.trans (by rw [h.clock]),
    fun e => k.engine (h.engine e)⟩

/-- The second part first: its start is read off the end. -/
theorem PortsStand.before {s t u : State} (k : PortsStand t u) (h : PortsStand s t) : PortsStand s u := h.trans k

/-- A part that leaves the engine too. -/
theorem PortsStand.same {s t : State} (piu : t.piu = s.piu := by rfl) (seq : t.seq = s.seq := by rfl)
    (faults : t.faults = s.faults := by rfl) (clock : t.clock = { s.clock with expiry := t.clock.expiry } := by rfl)
    (scrub : t.scrub = s.scrub := by rfl) : PortsStand s t :=
  ⟨piu, seq, faults, clock, fun h => by unfold engineMatches; rw [scrub]; exact h⟩

theorem portsStand_ite {c : Prop} [Decidable c] {s t u : State} (h : PortsStand s t) (k : PortsStand s u) :
    PortsStand s (if c then t else u) := by
  split
  · exact h
  · exact k

theorem PortsStand.port {s t : State} (h : PortsStand s t) (p : Port) : t.port p = s.port p := by
  rw [State.port, h.piu]; rfl

theorem PortsStand.time {s t : State} (h : PortsStand s t) : t.clock.time = s.clock.time := by rw [h.clock]

/-! ## Phases, frames and drains -/

theorem portsStand_setWin (i : WinIdx) (w : Window) (s : State) : PortsStand s (s.setWin i w) := .same

theorem portsStand_enterPhase (i : WinIdx) (ph : Phase) (c : Code) (s : State) :
    PortsStand s (enterPhase i ph c s) := by
  rw [enterPhase_eq]; exact .same

theorem portsStand_enterHeld (i : WinIdx) (s : State) : PortsStand s (enterHeld i s) := portsStand_enterPhase _ _ _ s

theorem portsStand_renewWindow (i : WinIdx) (budget : Code) (s : State) : PortsStand s (renewWindow i budget s) := by
  rw [renewWindow_eq]; exact .same

theorem portsStand_enterFirst (i : WinIdx) (s : State) : PortsStand s (enterFirst i s) :=
  portsStand_ite (portsStand_enterHeld i s) (portsStand_enterPhase i _ _ s)

theorem portsStand_orphanPort (i : WinIdx) (p : Port) (s : State) : PortsStand s (orphanPort i p s) := .same

theorem portsStand_lowerRefs (fs : List Frame) (s : State) : PortsStand s (lowerRefs fs s) := by
  rw [(lowerRefs_eq fs s).2]; exact .same

theorem portsStand_emptyStack (p : Port) (s : State) : PortsStand s (emptyStack p s) := by
  rw [(emptyStack_eq p s).2.2]; exact .same

/-- The scrub list grows by one: an IDLE engine takes the window at once (R137, R138). -/
theorem portsStand_scrubAppend (i : WinIdx) (s : State) : PortsStand s (scrubAppend i s) := by
  unfold scrubAppend
  simp only
  split
  · rename_i idle
    have idle : s.scrub.state = .idle := by simpa using idle
    unfold scrubTake
    cases list : s.scrub.list with
    | nil => exact ⟨rfl, rfl, rfl, rfl, fun _ => by simp [engineMatches, idle]⟩
    | cons j rest =>
      refine ⟨rfl, rfl, rfl, rfl, fun h => ?_⟩
      have empty := h.2 idle
      rw [list] at empty
      cases empty
  · rename_i busy
    have busy : s.scrub.state ≠ .idle := by simpa using busy
    exact ⟨rfl, rfl, rfl, rfl, fun h => ⟨h.1, fun e => absurd e busy⟩⟩

theorem portsStand_endDrain (i : WinIdx) (s : State) : PortsStand s (endDrain i s) :=
  portsStand_ite ((portsStand_scrubAppend i _).before (portsStand_setWin i _ s)) (portsStand_setWin i _ s)

theorem portsStand_endDrainIfDone (i : WinIdx) (s : State) : PortsStand s (endDrainIfDone i s) :=
  portsStand_ite (portsStand_endDrain i s) (.refl s)

theorem portsStand_enterDraining (i : WinIdx) (s : State) : PortsStand s (enterDraining i s) :=
  (portsStand_endDrainIfDone i _).before .same

theorem portsStand_enterLapsed (i : WinIdx) (s : State) : PortsStand s (enterLapsed i s) :=
  portsStand_ite ((portsStand_enterDraining i _).before .same) .same

/-! ## Bindings -/

theorem portsStand_releaseBound (b : Option WinIdx) (s : State) : PortsStand s (releaseBound b s) := by
  cases b with
  | none => exact .refl s
  | some i => exact (portsStand_endDrainIfDone i _).before (portsStand_setWin i _ s)

theorem portsStand_releaseEntries (es : List Entry) (s : State) : PortsStand s (releaseEntries es s) := by
  induction es generalizing s with
  | nil => exact .refl s
  | cons e es ih => exact (portsStand_releaseBound e.binding s).trans (ih _)

theorem portsStand_bindWindow (b : Option WinIdx) (s : State) : PortsStand s (bindWindow b s) := by
  cases b with
  | none => exact .refl s
  | some i => exact .same

/-! ## Expiries -/

theorem portsStand_expiryOf (i : WinIdx) (s : State) : PortsStand s (expiryOf i s) := by
  unfold expiryOf
  simp only
  split
  · exact portsStand_enterHeld i s
  · exact portsStand_ite (portsStand_enterPhase i _ _ s) (portsStand_enterLapsed i s)
  · exact portsStand_enterLapsed i s
  all_goals exact .refl s

theorem portsStand_expireHead (e : Expiry) (s : State) : PortsStand s (expireHead e s) :=
  (portsStand_expiryOf e.window _).before .same

theorem portsStand_expireReached (n : Nat) (s : State) : PortsStand s (expireReached n s) := by
  induction n generalizing s with
  | zero => exact .refl s
  | succ n ih =>
    unfold expireReached
    split
    · exact .refl s
    · exact portsStand_ite ((portsStand_expireHead _ s).trans (ih _)) (.refl s)

/-! ## The Scrub Engine -/

/-- A group counted: the engine goes on with its record, takes the next window, or is IDLE with an empty list (R139,
R140). -/
theorem portsStand_countGroup (s : State) : PortsStand s (countGroup s) := by
  unfold countGroup
  cases hg : s.scrub.progress with
  | none => exact .refl s
  | some g =>
    refine portsStand_ite ?_ ⟨rfl, rfl, rfl, rfl, fun h => ?_⟩
    · rw [fillComplete_eq]
      cases list : s.scrub.list with
      | nil => exact ⟨rfl, rfl, rfl, rfl, fun _ => ⟨⟨fun _ => rfl, fun _ => rfl⟩, fun _ => list⟩⟩
      | cons j rest =>
        have next : (fillDone g.window s).scrub.list = j :: rest := list
        simp only [scrubTake, next]
        refine ⟨rfl, rfl, rfl, rfl, fun h => ?_⟩
        have busy : s.scrub.state ≠ .idle := fun e => by
          have empty := h.2 e
          rw [list] at empty
          cases empty
        have same : (fillDone g.window s).scrub.state = s.scrub.state := rfl
        simp [engineMatches, same, busy]
    · have busy : s.scrub.state ≠ .idle := fun e => by
        have none := h.1.1 e
        rw [hg] at none
        cases none
      exact ⟨iff_of_false busy (by simp), fun e => absurd e busy⟩

/-! ## What the owners of control writes and the actions do to the tables -/

theorem portsStand_requestArrival (r : Request) (s : State) : PortsStand s (requestArrival r s) :=
  portsStand_ite .same (portsStand_ite .same .same)

theorem portsStand_serveReply (p : Port) (s : State) : PortsStand s (serveReply p s).2 := by
  unfold serveReply
  split
  · exact .refl s
  · exact .same

theorem portsStand_releaseHold (p : Port) (i : WinIdx) (s : State) : PortsStand s (releaseHold p i s) :=
  portsStand_ite (portsStand_enterDraining i s)
    ((portsStand_setWin i _ _).before (portsStand_orphanPort i p s))

theorem portsStand_createWindow (n : NewWindow) (s : State) : PortsStand s (createWindow n s).1 := by
  unfold createWindow
  split
  · exact .refl s
  · split
    · exact .refl s
    · exact (portsStand_enterFirst _ _).before (portsStand_setWin _ _ s)

theorem portsStand_applyAmend (i : WinIdx) (a : ActionRecord) (s : State) : PortsStand s (applyAmend i a s) := by
  have orphaned := orphaned_foldl i (s.win i).ports a.ports (l := allPorts) (by decide) s
  refine .before (portsStand_setWin i _ _) ?_
  rw [orphaned.rest]
  exact .same

/-! ## Counts of bound accesses -/

/-- The count of every window stands. -/
def SameFlights (s t : State) : Prop := ∀ i, (t.win i).inFlight = (s.win i).inFlight

theorem SameFlights.trans {s t u : State} (h : SameFlights s t) (k : SameFlights t u) : SameFlights s u :=
  fun i => (k i).trans (h i)

theorem sameFlights_of_turned {i : WinIdx} {w : Window} {s t : State} (h : Turned i w s t)
    (same : w.inFlight = (s.win i).inFlight) : SameFlights s t :=
  h.all (P := fun j w => w.inFlight = (s.win j).inFlight) same fun _ _ => rfl

theorem sameFlights_inPhase (i : WinIdx) (ph : Phase) (c : Code) (s : State) : SameFlights s (inPhase i ph c s) :=
  sameFlights_of_turned (turned_inPhase i ph c s) rfl

theorem sameFlights_drained {i : WinIdx} {s : State} (none : (s.win i).inFlight = 0) : SameFlights s (drained i s) := by
  refine sameFlights_of_turned (turned_drained i s) ?_
  split
  · exact none.symm
  · split <;> rfl

theorem sameFlights_retired (i : WinIdx) (s : State) : SameFlights s (retired i s) := by
  have k := sameFlights_of_turned (turned_withoutRights i .draining s) rfl
  unfold retired
  split
  · exact k
  · rename_i none
    exact k.trans (sameFlights_drained ((k i).trans (not_not.1 none)))

theorem sameFlights_lapsed (i : WinIdx) (s : State) : SameFlights s (lapsed i s) := by
  unfold lapsed
  split
  · exact sameFlights_retired i s
  · exact sameFlights_of_turned (turned_withoutRights i .lapsed s) rfl

theorem sameFlights_expired (i : WinIdx) (s : State) : SameFlights s (expired s i) := by
  unfold expired
  split
  · exact sameFlights_inPhase i _ _ s
  · split
    · exact sameFlights_inPhase i _ _ s
    · exact sameFlights_lapsed i s

theorem sameFlights_expiries (l : List WinIdx) (s : State) : SameFlights s (l.foldl expired s) := by
  induction l generalizing s with
  | nil => exact fun _ => rfl
  | cons i l ih => exact (sameFlights_expired i s).trans (ih _)

/-- A binding counts for its window. -/
def ties (b : Option WinIdx) (i : WinIdx) : Nat := if b = some i then 1 else 0

theorem flights_unboundFrom (b : Option WinIdx) (s : State) (j : WinIdx) :
    ((unboundFrom b s).win j).inFlight = (s.win j).inFlight - ties b j := by
  cases b with
  | none => rfl
  | some i =>
    have turned : Turned i { s.win i with inFlight := (s.win i).inFlight - 1 } s
        (s.setWin i { s.win i with inFlight := (s.win i).inFlight - 1 }) := turned_setWin fun _ => rfl
    have lowered : ((s.setWin i { s.win i with inFlight := (s.win i).inFlight - 1 }).win j).inFlight =
        (s.win j).inFlight - ties (some i) j := by
      rw [turned j]
      by_cases hj : j = i
      · subst hj; simp [ties]
      · have : ¬ some i = some j := fun e => hj (Option.some.inj e).symm
        simp [ties, hj, this]
    rw [← lowered]
    simp only [unboundFrom, unbound]
    split
    · rename_i ends
      refine sameFlights_drained ?_ j
      rw [turned.self]
      exact Nat.sub_eq_zero_of_le ends.2
    · rfl

/-- The entries of a list that are bound to a window. -/
def bound (i : WinIdx) (l : List Entry) : Nat := l.countP fun e => boundWindow e == some i

theorem bound_nil (i : WinIdx) : bound i [] = 0 := rfl

theorem bound_cons (i : WinIdx) (e : Entry) (l : List Entry) : bound i (e :: l) = ties (boundWindow e) i + bound i l := by
  rw [bound, List.countP_cons, ties, bound, Nat.add_comm]
  congr 1
  simp

theorem bound_append (i : WinIdx) (l m : List Entry) : bound i (l ++ m) = bound i l + bound i m := List.countP_append

theorem flights_unboundAll (es : List Entry) (s : State) (i : WinIdx) :
    ((unboundAll es s).win i).inFlight = (s.win i).inFlight - bound i es := by
  induction es generalizing s with
  | nil => rfl
  | cons e es ih =>
    have rest := ih (unboundFrom (boundWindow e) s)
    rw [flights_unboundFrom, Nat.sub_sub, ← bound_cons] at rest
    exact rest

theorem flights_bindWindow (b : Option WinIdx) (s : State) (j : WinIdx) :
    ((bindWindow b s).win j).inFlight = (s.win j).inFlight + ties b j := by
  cases b with
  | none => rfl
  | some i =>
    rw [bindWindow, win_setWin]
    by_cases hj : j = i
    · subst hj; simp [ties]
    · have : ¬ some i = some j := fun e => hj (Option.some.inj e).symm
      simp [ties, hj, this]

/-- Bindings released, one after the other, keep the tables (R37, R38). -/
theorem table_unboundFrom {b : Option WinIdx} {s : State} (h : Table none [] s) : Table none [] (unboundFrom b s) := by
  cases b with
  | none => exact h
  | some i => exact h.unbound

theorem table_unboundAll {es : List Entry} {s : State} (h : Table none [] s) : Table none [] (unboundAll es s) := by
  induction es generalizing s with
  | nil => exact h
  | cons e es ih => exact ih (table_unboundFrom h)

end Sys2Proof.Keeping
end

section
/-! PROOFS. Pending lists and the burst under way (spec/01 R37; spec/07 R121, R124): what an event keeps of the
invariants, and the changes of one port's pending list. -/

namespace Sys2Proof.Keeping
open Sys2Proof.Machine Sys2Proof.Safety Sys2Proof.Tables Sys2Proof.Ticks

/-! ## Lists of entries -/

/-- The burst a pending list stands for: that of its oldest entry, where it is under way, with its binding. -/
def under (l : List Entry) : Option (Option WinIdx) :=
  match l with
  | [] => none
  | e :: _ => if e.progress = .executing then some (boundWindow e) else none

/-- The binding of the burst under way, where it is port `p`'s. -/
def granted (p : Port) (burst : Option Burst) : Option (Option WinIdx) :=
  burst.bind fun b => if b.source = .port p then some b.bound else none

/-- No entry of the list is under way. -/
def Waiting (l : List Entry) : Prop := ∀ e ∈ l, e.progress ≠ .executing

/-- The pending list of port `p` is in line with the burst under way. -/
def InLine (p : Port) (burst : Option Burst) (l : List Entry) : Prop := under l = granted p burst ∧ Waiting l.tail

/-- The oldest entry of the list is not SETTLED. -/
def FrontOk (l : List Entry) : Prop := ∀ e es, l = e :: es → e.progress ≠ .settled

theorem under_eq_some {l : List Entry} {b : Option WinIdx} :
    under l = some b ↔ ∃ e es, l = e :: es ∧ e.progress = .executing ∧ b = boundWindow e := by
  cases l with
  | nil => simp [under]
  | cons e es =>
    by_cases h : e.progress = .executing
    · simp [under, h, eq_comm]
    · refine iff_of_false (by simp [under, h]) ?_
      rintro ⟨x, xs, same, k, -⟩
      cases same
      exact h k

theorem granted_eq_some {p : Port} {burst : Option Burst} {w : Option WinIdx} :
    granted p burst = some w ↔ ∃ b, burst = some b ∧ b.source = .port p ∧ b.bound = w := by
  cases burst with
  | none => simp [granted]
  | some b =>
    by_cases h : b.source = .port p <;> simp [granted, h]

theorem under_of_waiting {l : List Entry} (h : Waiting l) : under l = none := by
  cases l with
  | nil => rfl
  | cons e es => exact if_neg (h e List.mem_cons_self)

theorem granted_of_other {p : Port} {b : Burst} (h : b.source ≠ .port p) : granted p (some b) = none := if_neg h

theorem waiting_of_noBurst {p : Port} {l : List Entry} (h : InLine p none l) : Waiting l := by
  cases l with
  | nil => exact fun e he => by cases he
  | cons e es =>
    intro x hx
    rcases List.mem_cons.1 hx with rfl | hx
    · exact fun k => by
        have := h.1
        rw [under, if_pos k] at this
        cases this
    · exact h.2 x hx

/-- The burst of a port is that of its oldest entry, and no other entry is under way. -/
theorem burstMatches_iff (s : State) :
    burstMatches s ↔ ∀ p, InLine p s.seq.burst (s.port p).pending := by
  constructor
  · rintro ⟨first, only⟩ p
    refine ⟨Option.ext fun w => ?_, fun e he k => ?_⟩
    · rw [under_eq_some, granted_eq_some]
      constructor
      · rintro ⟨e, es, list, k, rfl⟩
        obtain ⟨-, b, hb, source⟩ := only p [] es e list k
        obtain ⟨e', es', list', -, bind⟩ := first b p hb source
        rw [list] at list'
        cases list'
        exact ⟨b, hb, source, bind⟩
      · rintro ⟨b, hb, source, rfl⟩
        obtain ⟨e, es, list, k, bind⟩ := first b p hb source
        exact ⟨e, es, list, k, bind⟩
    · cases list : (s.port p).pending with
      | nil => rw [list] at he; cases he
      | cons x xs =>
        rw [list] at he
        obtain ⟨older, younger, split⟩ := List.append_of_mem he
        have := (only p (x :: older) younger e (by rw [list]; exact congrArg (List.cons x) split) k).1
        cases this
  · refine fun h => ⟨fun b p hb source => ?_, fun p older younger e list k => ?_⟩
    · have : under (s.port p).pending = some b.bound := (h p).1.trans (granted_eq_some.2 ⟨b, hb, source, rfl⟩)
      exact under_eq_some.1 this
    · cases older with
      | cons x xs =>
        refine absurd k ((h p).2 e ?_)
        rw [list]
        exact List.mem_append_right _ List.mem_cons_self
      | nil =>
        have : granted p s.seq.burst = some (boundWindow e) := (h p).1.symm.trans (under_eq_some.2 ⟨e, younger, list, k, rfl⟩)
        obtain ⟨b, hb, source, -⟩ := granted_eq_some.1 this
        exact ⟨rfl, b, hb, source⟩

/-! ## The invariants that every event keeps together -/

/-- The entries of all ports that are bound to window `i`. -/
def flying (i : WinIdx) (s : State) : Nat := (allPorts.map fun p => bound i (s.port p).pending).sum

/-- Tables in line, every binding counted, and the burst in line with the pending lists. -/
structure Sound (s : State) : Prop where
  table : Table none [] s
  counted : ∀ i, (s.win i).inFlight = flying i s
  inLine : ∀ p, InLine p s.seq.burst (s.port p).pending

/-- Lists and counts in their places, lines and engine in line. -/
structure Places (s : State) : Prop where
  pending : ∀ p, (s.port p).pending.length ≤ 2
  lines : linesMatch s
  share : s.seq.shareCount ≤ 15
  overflow : s.faults.overflow ≤ 255
  engine : engineMatches s

theorem sound_of_invariants {s : State} (h : Invariants s) : Sound s :=
  ⟨table_of_invariants h, fun i => (h.bindings i).1, (burstMatches_iff s).1 h.burst⟩

theorem Sound.bindingsCounted {s : State} (h : Sound s) : bindingsCounted s :=
  fun i => ⟨h.counted i, (h.table.windows i).quiet⟩

theorem Sound.burstMatches {s : State} (h : Sound s) : burstMatches s := (burstMatches_iff s).2 h.inLine

theorem places_of {s : State} (within : withinPlaces s) (lines : linesMatch s) (engine : engineMatches s) : Places s :=
  ⟨fun p => (within.1 p).1, lines, within.2.2.1, within.2.2.2, engine⟩

theorem oldestUnsettled_iff (s : State) : oldestUnsettled s ↔ ∀ p, FrontOk (s.port p).pending := Iff.rfl

/-- What a part of an event keeps; at port `loose` the oldest entry may be left SETTLED till its response leaves. -/
structure Kept (loose : Option Port) (s t : State) : Prop where
  sound : Sound s → Sound t
  places : Places s → Places t
  front : ∀ p, loose ≠ some p → FrontOk (s.port p).pending → FrontOk (t.port p).pending

/-- Kept, and lease time stands. -/
structure Keeps (loose : Option Port) (s t : State) : Prop extends Kept loose s t where
  time : t.clock.time = s.clock.time

theorem Kept.refl (loose : Option Port) (s : State) : Kept loose s s := ⟨id, id, fun _ _ => id⟩

theorem Kept.trans {loose : Option Port} {s t u : State} (h : Kept loose s t) (k : Kept loose t u) : Kept loose s u :=
  ⟨fun e => k.sound (h.sound e), fun e => k.places (h.places e), fun p hp e => k.front p hp (h.front p hp e)⟩

theorem Keeps.refl (loose : Option Port) (s : State) : Keeps loose s s := ⟨.refl loose s, rfl⟩

theorem Keeps.trans {loose : Option Port} {s t u : State} (h : Keeps loose s t) (k : Keeps loose t u) :
    Keeps loose s u := ⟨h.toKept.trans k.toKept, k.time.trans h.time⟩

/-- The second part first: its start is read off the end. -/
theorem Keeps.before {loose : Option Port} {s t u : State} (k : Keeps loose t u) (h : Keeps loose s t) :
    Keeps loose s u := h.trans k

theorem keeps_ite {loose : Option Port} {c : Prop} [Decidable c] {s t u : State} (h : Keeps loose s t)
    (k : Keeps loose s u) : Keeps loose s (if c then t else u) := by
  split
  · exact h
  · exact k

theorem keeps_foldl {α : Type} {loose : Option Port} {f : State → α → State} (h : ∀ s x, Keeps loose s (f s x))
    (l : List α) (s : State) : Keeps loose s (l.foldl f s) := by
  induction l generalizing s with
  | nil => exact .refl loose s
  | cons x l ih => exact (h s x).trans (ih _)

theorem Keeps.loosen {s t : State} (h : Keeps none s t) (loose : Option Port) : Keeps loose s t :=
  { h with front := fun p _ => h.front p (by simp) }

/-- Port `p`'s oldest entry settled or not, the next part sees to it. -/
theorem Keeps.thenFront {p : Port} {s t u : State} (h : Keeps (some p) s t) (k : Keeps none t u)
    (front : FrontOk (u.port p).pending) : Keeps none s u :=
  { h.trans (k.loosen _) with
    front := fun q _ e => by
      by_cases hq : q = p
      · exact hq ▸ front
      · exact (h.trans (k.loosen (some p))).front q (fun x => hq (Option.some.inj x).symm) e }

/-! ## Parts that leave the pending lists -/

/-- A part that leaves the ports and the sequencer keeps what it keeps of the tables. -/
theorem kept_of_tables {loose : Option Port} {s t : State} (piu : t.piu = s.piu) (seq : t.seq = s.seq)
    (overflow : s.faults.overflow ≤ 255 → t.faults.overflow ≤ 255) (engine : engineMatches s → engineMatches t)
    (table : Table none [] s → Table none [] t) (flights : Table none [] s → SameFlights s t) : Kept loose s t := by
  have port (p : Port) : t.port p = s.port p := by rw [State.port, piu]; rfl
  refine ⟨fun h => ⟨table h.table, fun i => ?_, fun p => ?_⟩,
    fun h => ⟨fun p => ?_, fun p => ?_, ?_, overflow h.overflow, engine h.engine⟩, fun p _ h => ?_⟩
  · rw [flights h.table i, h.counted i]
    simp only [flying, port]
  · rw [port, seq]; exact h.inLine p
  · rw [port]; exact h.pending p
  · rw [port]; exact h.lines p
  · rw [seq]; exact h.share
  · rw [port]; exact h

theorem keeps_of_tables {loose : Option Port} {s t : State} (stand : PortsStand s t)
    (table : Table none [] s → Table none [] t) (flights : Table none [] s → SameFlights s t) : Keeps loose s t :=
  ⟨kept_of_tables stand.piu stand.seq (by rw [stand.faults]; exact id) stand.engine table flights, stand.time⟩

/-- A part that leaves the tables too. -/
theorem keeps_of_quiet {loose : Option Port} {s t : State} (windows : t.windows = s.windows := by rfl)
    (scopes : t.scopes = s.scopes := by rfl) (state : t.scrub.state = s.scrub.state := by rfl)
    (list : t.scrub.list = s.scrub.list := by rfl) (progress : t.scrub.progress = s.scrub.progress := by rfl)
    (piu : t.piu = s.piu := by rfl) (seq : t.seq = s.seq := by rfl)
    (overflow : s.faults.overflow ≤ 255 → t.faults.overflow ≤ 255 := by exact id)
    (expiry : t.clock.expiry = s.clock.expiry := by rfl) (time : t.clock.time = s.clock.time := by rfl) :
    Keeps loose s t := by
  have win (i : WinIdx) : t.win i = s.win i := by rw [State.win, windows]; rfl
  exact ⟨kept_of_tables piu seq overflow (fun h => by unfold engineMatches; rw [state, list, progress]; exact h)
    (fun h => h.same win scopes state list progress expiry time) fun _ i => by rw [win], time⟩

/-! ## A pending list replaced -/

/-- From `old` to `new` port `p`'s pending list loses the bindings `gone`, takes the bindings `come`, and stays in line
with the burst under way. -/
structure Follows (p : Port) (burst : Option Burst) (gone come : WinIdx → Nat) (old new : List Entry) : Prop where
  bound : ∀ i, bound i new + gone i = bound i old + come i
  inLine : InLine p burst old → InLine p burst new
  room : old.length ≤ 2 → new.length ≤ 2

/-- No binding. -/
def noTies (_ : WinIdx) : Nat := 0

theorem Follows.refl (p : Port) (burst : Option Burst) (l : List Entry) : Follows p burst noTies noTies l l :=
  ⟨fun _ => rfl, id, id⟩

/-- A port after a part of an event: its list follows, and its state its line. -/
structure PortFits (loose : Option Port) (p : Port) (burst : Option Burst) (gone come : WinIdx → Nat) (u x : Piu) :
    Prop where
  follows : Follows p burst gone come u.pending x.pending
  lines : (u.state = .inReset ↔ u.line = true) → (x.state = .inReset ↔ x.line = true)
  front : loose ≠ some p → FrontOk u.pending → FrontOk x.pending

theorem flying_setPort (i : WinIdx) (p : Port) (x : Piu) (s : State) :
    flying i (s.setPort p x) + bound i (s.port p).pending = flying i s + bound i x.pending := by
  cases p <;> simp only [flying, allPorts, State.setPort, State.port, PerPort.set, PerPort.get, List.map_cons,
    List.map_nil, List.sum_cons, List.sum_nil] <;> omega

theorem bound_le_flying (i : WinIdx) (p : Port) (s : State) : bound i (s.port p).pending ≤ flying i s := by
  cases p <;> simp only [flying, allPorts, List.map_cons, List.map_nil, List.sum_cons, List.sum_nil] <;> omega

theorem table_setPort {idle : Option WinIdx} {due : List WinIdx} {p : Port} {x : Piu} {s : State}
    (h : Table idle due s) : Table idle due (s.setPort p x) := h.same (fun _ => rfl) rfl rfl rfl rfl rfl rfl

/-- The sequencer and a port replaced, and then a part that releases the bindings gone and takes those that came. -/
theorem keeps_of_burst {loose : Option Port} {p : Port} {gone come : WinIdx → Nat} {s t : State} {q : Sequencer} {x : Piu}
    (stand : PortsStand (({ s with seq := q } : State).setPort p x) t)
    (share : s.seq.shareCount ≤ 15 → q.shareCount ≤ 15)
    (others : ∀ r, r ≠ p → granted r q.burst = granted r s.seq.burst)
    (list : InLine p s.seq.burst (s.port p).pending →
      InLine p q.burst x.pending ∧ ∀ i, bound i x.pending + gone i = bound i (s.port p).pending + come i)
    (room : (s.port p).pending.length ≤ 2 → x.pending.length ≤ 2)
    (lines : ((s.port p).state = .inReset ↔ (s.port p).line = true) → (x.state = .inReset ↔ x.line = true))
    (front : loose ≠ some p → FrontOk (s.port p).pending → FrontOk x.pending)
    (table : Table none [] s → Table none [] t)
    (flights : Table none [] s → ∀ i, (t.win i).inFlight = (s.win i).inFlight + come i - gone i) :
    Keeps loose s t where
  sound h := by
    refine ⟨table h.table, fun i => ?_, fun r => ?_⟩
    · have here : flying i t = flying i (s.setPort p x) := by
        simp only [flying, stand.port]
        rfl
      have count := flying_setPort i p x s
      have least := bound_le_flying i p s
      have change := (list (h.inLine p)).2 i
      have before := h.counted i
      have after := flights h.table i
      rw [here]
      omega
    · rw [stand.port, stand.seq]
      by_cases hr : r = p
      · subst hr
        rw [State.port_setPort_self]
        exact (list (h.inLine r)).1
      · rw [State.port_setPort_ne _ _ hr]
        exact ⟨(h.inLine r).1.trans (others r hr).symm, (h.inLine r).2⟩
  places h := by
    refine ⟨fun r => ?_, fun r => ?_, by rw [stand.seq]; exact share h.share, by rw [stand.faults]; exact h.overflow,
      stand.engine h.engine⟩ <;> rw [stand.port] <;> by_cases hr : r = p
    · subst hr; rw [State.port_setPort_self]; exact room (h.pending r)
    · rw [State.port_setPort_ne _ _ hr]; exact h.pending r
    · subst hr; rw [State.port_setPort_self]; exact lines (h.lines r)
    · rw [State.port_setPort_ne _ _ hr]; exact h.lines r
  front r hr h := by
    rw [stand.port]
    by_cases e : r = p
    · subst e; rw [State.port_setPort_self]; exact front hr h
    · rw [State.port_setPort_ne _ _ e]; exact h
  time := stand.time

/-- A port replaced, and then a part that releases the bindings gone and takes those that came. -/
theorem keeps_of_port {loose : Option Port} {p : Port} {gone come : WinIdx → Nat} {s t : State} {x : Piu}
    (fits : PortFits loose p s.seq.burst gone come (s.port p) x) (stand : PortsStand (s.setPort p x) t)
    (table : Table none [] (s.setPort p x) → Table none [] t)
    (flights : Table none [] (s.setPort p x) → ∀ i, (t.win i).inFlight = (s.win i).inFlight + come i - gone i) :
    Keeps loose s t :=
  keeps_of_burst (q := s.seq) stand id (fun _ _ => rfl) (fun h => ⟨fits.follows.inLine h, fits.follows.bound⟩)
    fits.follows.room fits.lines fits.front (fun h => table (table_setPort h)) fun h => flights (table_setPort h)

/-- A port replaced, its bindings standing. -/
theorem keeps_setPort {loose : Option Port} {p : Port} {s : State} {x : Piu}
    (fits : PortFits loose p s.seq.burst noTies noTies (s.port p) x) : Keeps loose s (s.setPort p x) :=
  keeps_of_port fits (.refl _) id fun _ _ => rfl

/-- A port's flags, counts and arm replaced. -/
theorem keeps_setPort_flags {loose : Option Port} {p : Port} {s : State} {x : Piu}
    (pending : x.pending = (s.port p).pending := by rfl) (state : x.state = (s.port p).state := by rfl)
    (line : x.line = (s.port p).line := by rfl) : Keeps loose s (s.setPort p x) :=
  keeps_setPort ⟨pending ▸ .refl _ _ _, fun h => by rw [state, line]; exact h, fun _ h => pending ▸ h⟩

/-! ## Changes of a pending list -/

section Lists
variable {p : Port} {burst : Option Burst}

theorem Follows.trans {l m n : List Entry} {gone come : WinIdx → Nat} (h : Follows p burst noTies noTies l m)
    (k : Follows p burst gone come m n) : Follows p burst gone come l n :=
  ⟨fun i => (k.bound i).trans (by rw [show Keeping.bound i m = Keeping.bound i l from h.bound i]),
    fun e => k.inLine (h.inLine e), fun e => k.room (h.room e)⟩

/-- An entry of a port in its place. -/
theorem split_of_get {l : List Entry} {n : Nat} {e : Entry} (h : l[n]? = some e) :
    ∃ older younger, l = older ++ e :: younger ∧ older.length = n := by
  obtain ⟨lt, rfl⟩ := List.getElem?_eq_some_iff.1 h
  exact ⟨l.take n, l.drop (n + 1), by simp, by simp; omega⟩

/-- An entry that is not under way is replaced by one that is not, and gives up the bindings `gone`. -/
theorem follows_set {l : List Entry} {n : Nat} {e x : Entry} {gone : WinIdx → Nat} (h : l[n]? = some e)
    (he : e.progress ≠ .executing) (hx : x.progress ≠ .executing)
    (freed : ∀ i, ties (boundWindow x) i + gone i = ties (boundWindow e) i) :
    Follows p burst gone noTies l (l.set n x) := by
  obtain ⟨older, younger, rfl, rfl⟩ := split_of_get h
  have set : (older ++ e :: younger).set older.length x = older ++ x :: younger := by simp
  rw [set]
  refine ⟨fun i => ?_, fun inLine => ?_, fun room => by simpa using room⟩
  · have := freed i
    simp only [bound_append, bound_cons, noTies]
    omega
  · cases older with
    | nil =>
      refine ⟨?_, inLine.2⟩
      rw [← inLine.1]
      exact (if_neg hx).trans (if_neg he).symm
    | cons y ys =>
      refine ⟨inLine.1, fun z hz => ?_⟩
      rcases List.mem_append.1 hz with hz | hz
      · exact inLine.2 z (List.mem_append_left _ hz)
      · rcases List.mem_cons.1 hz with rfl | hz
        · exact hx
        · exact inLine.2 z (List.mem_append_right _ (List.mem_cons_of_mem _ hz))

/-- An accepted access takes a slot (R3). -/
theorem follows_append {l : List Entry} {e : Entry} {come : WinIdx → Nat} (room : l.length < 2)
    (he : e.progress ≠ .executing) (ties : ∀ i, ties (boundWindow e) i = come i) :
    Follows p burst noTies come l (l ++ [e]) := by
  refine ⟨fun i => ?_, fun inLine => ?_, fun _ => by simp; omega⟩
  · have := ties i
    simp only [bound_append, bound_cons, bound_nil, noTies]
    omega
  · cases l with
    | nil => exact ⟨(if_neg he).trans inLine.1, inLine.2⟩
    | cons y ys =>
      refine ⟨inLine.1, fun z hz => ?_⟩
      rcases List.mem_append.1 hz with hz | hz
      · exact inLine.2 z hz
      · rw [List.mem_singleton.1 hz]; exact he

/-- Settled entries are bound to no window. -/
theorem ties_settled {e : Entry} (h : e.progress = .settled) (i : WinIdx) : ties (boundWindow e) i = 0 := by
  simp [boundWindow, h, ties]

/-- The settled entries at the front leave (R8). -/
theorem follows_dropWhile (l : List Entry) : Follows p burst noTies noTies l (l.dropWhile isSettled) := by
  induction l with
  | nil => exact .refl _ _ _
  | cons e l ih =>
    by_cases h : e.progress = .settled
    · have gone : (e :: l).dropWhile isSettled = l.dropWhile isSettled := by simp [isSettled, h]
      rw [gone]
      refine ⟨fun i => ?_, fun inLine => ?_, fun room => ih.room (by simp at room; omega)⟩
      · have := ih.bound i
        have := ties_settled h i
        rw [bound_cons]
        simp only [noTies] at *
        omega
      · have free : granted p burst = none := inLine.1.symm.trans (if_neg (by rw [h]; decide))
        refine ih.inLine ⟨(under_of_waiting inLine.2).trans free.symm, fun z hz => inLine.2 z ?_⟩
        exact List.mem_of_mem_tail hz
    · have stays : (e :: l).dropWhile isSettled = e :: l := by simp [isSettled, h]
      rw [stays]
      exact .refl _ _ _

theorem frontOk_dropWhile (l : List Entry) : FrontOk (l.dropWhile isSettled) := by
  intro e es h
  have := List.head?_dropWhile_not isSettled l
  rw [h] at this
  simpa [isSettled] using this

/-- Entries changed in their places, their progress and bindings standing. -/
theorem follows_map {f : Entry → Entry} (progress : ∀ e, (f e).progress = e.progress)
    (binding : ∀ e, boundWindow (f e) = boundWindow e) (l : List Entry) :
    Follows p burst noTies noTies l (l.map f) := by
  refine ⟨fun i => ?_, fun inLine => ?_, fun room => by simpa using room⟩
  · rw [bound, List.countP_map]
    exact congrArg (· + 0) (List.countP_congr fun e _ => by simp [binding])
  · cases l with
    | nil => exact inLine
    | cons e es =>
      refine ⟨?_, fun z hz => ?_⟩
      · rw [← inLine.1]
        simp only [List.map_cons, under, progress, binding]
      · obtain ⟨y, hy, rfl⟩ := List.mem_map.1 (show z ∈ es.map f from hz)
        rw [progress]
        exact inLine.2 y hy

end Lists

/-- The response of port `p`'s settled oldest entries leaves. -/
theorem keeps_depart {loose : Option Port} (p : Port) (s : State) : Keeps loose s (depart p s) := by
  rw [depart_eq]
  exact keeps_setPort ⟨follows_dropWhile _, id, fun _ _ => frontOk_dropWhile _⟩

theorem front_depart (p : Port) (s : State) : FrontOk ((depart p s).port p).pending := by
  rw [depart_eq, followed, State.port_setPort_self]
  exact frontOk_dropWhile _

/-- A part that may leave port `p`'s oldest entry SETTLED, and then the departure. -/
theorem Keeps.depart {p : Port} {s t : State} (h : Keeps (some p) s t) : Keeps none s (depart p t) :=
  h.thenFront (keeps_depart p t) (front_depart p t)

end Sys2Proof.Keeping
end

section
/-! PROOFS. Fault events, grants, acceptances, data beats and data deadlines (spec/01, spec/07, spec/09): each keeps the
invariants. -/

namespace Sys2Proof.Keeping
open Sys2Proof.Machine Sys2Proof.Safety Sys2Proof.Tables Sys2Proof.Ticks

/-! ## Fault events (R145, R151, R158) -/

theorem overflow_record (f : FaultRecorder) (r : FaultRecord) (h : f.overflow ≤ 255) :
    (f.record r).1.overflow ≤ 255 := by
  unfold FaultRecorder.record
  split
  · exact h
  · split
    · exact h
    · exact Nat.min_le_left _ _

theorem keeps_faultEvent {loose : Option Port} (p : Port) (reason : Reason) (kind : FaultKind) (a : PortAddr)
    (w : Option WinIdx) (s : State) : Keeps loose s (faultEvent p reason kind a w s) := by
  rw [Faults.aFaultEventRecordsFlagsAndStops p reason kind a w s]
  refine .before (keeps_setPort ⟨.refl _ _ _, fun lines => ?_, fun _ h => h⟩)
    (keeps_of_quiet (overflow := overflow_record _ _))
  by_cases stops : (s.port p).arm = true ∧ (s.port p).state = .active
  · have off : (s.port p).line ≠ true := fun on => by
      have reset : (s.port p).state = .inReset := lines.2 on
      rw [stops.2] at reset
      cases reset
    exact iff_of_false (by simp [stops]) off
  · refine Iff.trans ?_ lines
    exact iff_of_eq (congrArg (· = PortState.inReset) (if_neg stops))

/-! ## Grants (R121, R124, R126) -/

theorem granted_none (p : Port) : granted p none = none := rfl

/-- The sequencer takes up a burst from the Scrub Engine, or lays one down: no port's entry is under way. -/
theorem keeps_seq {loose : Option Port} {s : State} {q : Sequencer} (share : s.seq.shareCount ≤ 15 → q.shareCount ≤ 15)
    (same : ∀ p, granted p q.burst = granted p s.seq.burst) : Keeps loose s { s with seq := q } where
  sound h := ⟨h.table.same (fun _ => rfl) rfl rfl rfl rfl rfl rfl, h.counted,
    fun p => ⟨(h.inLine p).1.trans (same p).symm, (h.inLine p).2⟩⟩
  places h := ⟨h.pending, h.lines, share h.share, h.overflow, h.engine⟩
  front _ _ h := h
  time := rfl

theorem granted_scrub {b : Burst} (h : b.source = .scrub) (p : Port) : granted p (some b) = none :=
  granted_of_other (by rw [h]; simp)

theorem keeps_startScrubBurst {s : State} (idle : s.seq.burst = none) : Keeps none s (startScrubBurst s) := by
  unfold startScrubBurst
  split
  · exact .refl _ s
  · exact keeps_seq (fun _ => Nat.zero_le _) fun p => by rw [idle]; exact granted_scrub rfl p

/-- The burst of a port has the binding of its entry. -/
theorem bound_portBurst (p : Port) {e : Entry} (h : e.progress = .ready) :
    (portBurst p e).bound = boundWindow e ∧ (portBurst p e).source = .port p := by
  unfold portBurst boundWindow
  rw [h]
  cases e.decision <;> exact ⟨rfl, rfl⟩

/-- The oldest entry of a port is under way (R126). -/
theorem keeps_startPortBurst {s : State} {p : Port} (idle : s.seq.burst = none) (candidate : portCandidate s p = true) :
    Keeps none s (startPortBurst p s) := by
  obtain ⟨e, es, list, ready⟩ := (Bursts.portCandidate_iff s p).1 candidate
  have binding : boundWindow { e with progress := .executing } = boundWindow e := by
    unfold boundWindow
    rw [ready]
    cases e.decision <;> rfl
  obtain ⟨bind, source⟩ := bound_portBurst p ready
  have start : startPortBurst p s = ({ s with seq := ⟨p, min 15 (s.seq.shareCount + 1), some (portBurst p e)⟩ } :
      State).setPort p { s.port p with pending := { e with progress := .executing } :: es } := by
    simp only [startPortBurst, list]
  rw [start]
  refine keeps_of_burst (gone := noTies) (come := noTies) (.refl _) (fun _ => Nat.min_le_left _ _) (fun q hq => ?_)
    (fun line => ⟨⟨?_, ?_⟩, fun i => ?_⟩) (fun room => by rw [list] at room; exact room) id (fun _ _ x xs k => ?_)
    (fun h => h.same (fun _ => rfl) rfl rfl rfl rfl rfl rfl) fun _ _ => rfl
  · rw [idle]
    exact granted_of_other (by rw [source]; exact fun k => hq (Source.port.inj k).symm)
  · exact Eq.trans (by simp [under, binding]) (granted_eq_some.2 ⟨_, rfl, source, bind⟩).symm
  · have tail := line.2
    rw [list] at tail
    exact tail
  · rw [list, bound_cons, bound_cons, binding]
  · cases k
    simp

theorem keeps_grantDecision (s : State) : Keeps none s (grantDecision s) := by
  unfold grantDecision
  split
  · rename_i may
    have idle : s.seq.burst = none := by
      simp only [mayGrant, Bool.and_eq_true, Option.isNone_iff_eq_none] at may
      exact may.1.1
    refine keeps_ite (keeps_startScrubBurst idle) ?_
    split
    · rename_i p next
      exact keeps_startPortBurst idle (Bursts.portCandidate_of_nextPort next)
    · exact .refl _ s
  · exact .refl _ s

/-! ## Acceptances (R3, R4, R11, R63) -/

/-- A verdict that binds an access names a window in force. -/
theorem inForce_of_grantMatch {p : Port} {addr : PortAddr} {s : State} {b : Basis} {i : WinIdx}
    (h : grantMatch p addr s = .ok b) (hb : b.bound = some i) : (s.win i).phase = .held ∨ (s.win i).phase = .taper := by
  unfold grantMatch at h
  split at h
  · cases h
  · split at h
    case h_1 k => cases h; cases hb; exact .inl k
    case h_2 k => cases h; cases hb; exact .inr k
    all_goals cases h

theorem bound_applyFences (p : Port) (addr : PortAddr) (s : State) (b : Basis) :
    (applyFences p addr s b).bound = b.bound := by
  unfold applyFences
  induction allWindows generalizing b with
  | nil => rfl
  | cons i l ih =>
    rw [List.foldl_cons, ih]
    unfold applyFence
    split <;> rfl

theorem bound_applyCeiling (ceiling : Option Rights) (b : Basis) : (applyCeiling ceiling b).bound = b.bound := by
  cases ceiling <;> rfl

theorem bound_kindCheck {b : Basis} {acc : Access} {addrs : List SramAddr} {lanes : List LaneSet} {trimmed : Bool}
    {w : Option WinIdx} (h : kindCheck b acc = .admitted addrs lanes trimmed w) : w = b.bound := by
  unfold kindCheck at h
  split at h
  · split at h <;> cases h
    rfl
  · unfold checkWrite at h
    split at h
    · cases h
    · split at h
      · cases h; rfl
      · split at h
        · cases h
        · split at h <;> cases h
          rfl

theorem inForce_of_dataVerdict {p : Port} {acc : Access} {s : State} {addrs : List SramAddr} {lanes : List LaneSet}
    {trimmed : Bool} {i : WinIdx} (h : dataVerdict p acc s = .admitted addrs lanes trimmed (some i)) :
    (s.win i).phase = .held ∨ (s.win i).phase = .taper := by
  unfold dataVerdict at h
  split at h
  · cases h
  · unfold admission at h
    split at h
    · cases h
    · split at h
      · cases h
      · rename_i basis
        have bind := bound_kindCheck h
        rw [bound_applyCeiling, bound_applyFences] at bind
        unfold basisOf at basis
        split at basis
        · cases basis; cases bind
        · exact inForce_of_grantMatch basis bind.symm

theorem newEntry_progress (acc : Access) (dec : Decision) : (newEntry acc dec).progress ≠ .executing := by
  unfold newEntry
  split
  · simp [blankEntry]
  · split <;> simp [blankEntry, Entry.settle]

theorem boundWindow_newEntry_admitted (acc : Access) (addrs : List SramAddr) (lanes : List LaneSet) (trimmed : Bool)
    (w : Option WinIdx) : boundWindow (newEntry acc (.admitted addrs lanes trimmed w)) = w := by
  unfold newEntry
  split <;> rfl

/-- An entry that was not admitted is bound to no window. -/
theorem ties_of_boundWindow_none {e : Entry} (h : boundWindow e = none) (i : WinIdx) :
    ties (boundWindow e) i = noTies i := by rw [h]; rfl

theorem boundWindow_newEntry_other (acc : Access) {dec : Decision} (h : dec.boundWindow = none) :
    boundWindow (newEntry acc dec) = none := by
  rw [← binding_eq]
  have decision : (newEntry acc dec).decision = dec := by
    unfold newEntry
    split
    · rfl
    · split <;> rfl
  rw [Entry.binding, decision, h, ite_self]

/-- An accepted access that is bound to no window takes a slot (R3). -/
theorem keeps_enterPending {p : Port} {e : Entry} {s : State} (room : (s.port p).pending.length < 2)
    (he : e.progress ≠ .executing) (free : boundWindow e = none) : Keeps none s (enterPending p e s) :=
  (keeps_setPort (x := { s.port p with pending := (s.port p).pending ++ [e] })
    ⟨follows_append room he (ties_of_boundWindow_none free), id, fun h => absurd rfl h⟩).depart

theorem bindWindow_setPort (w : Option WinIdx) (p : Port) (x : Piu) (s : State) :
    bindWindow w (s.setPort p x) = (bindWindow w s).setPort p x := by
  cases w <;> rfl

/-- An admitted access takes a slot and is bound (R37, R63). -/
theorem keeps_boundEntry {p : Port} {e : Entry} {w : Option WinIdx} {s : State} {x : Piu}
    (room : (s.port p).pending.length < 2) (he : e.progress ≠ .executing) (bind : boundWindow e = w)
    (inForce : ∀ i, w = some i → (s.win i).phase = .held ∨ (s.win i).phase = .taper)
    (state : x.state = (s.port p).state) (line : x.line = (s.port p).line)
    (pending : x.pending = (s.port p).pending) :
    Keeps none s (enterPending p e ((bindWindow w s).setPort p x)) := by
  unfold enterPending
  rw [State.port_setPort_self, State.setPort_setPort, ← bindWindow_setPort]
  refine Keeps.depart (keeps_of_port (gone := noTies) (come := ties w)
    ⟨?_, fun h => by rw [state, line]; exact h, fun h => absurd rfl h⟩
    (portsStand_bindWindow w _) (fun h => h.bindWindow inForce) fun _ i => flights_bindWindow w _ i)
  rw [pending]
  exact follows_append room he fun i => by rw [bind]

theorem keeps_acceptData {p : Port} {acc : Access} {s : State} (room : (s.port p).pending.length < 2) :
    Keeps none s (acceptData p acc s) := by
  have entry (dec : Decision) := newEntry_progress acc dec
  unfold acceptData
  cases hv : dataVerdict p acc s with
  | admitted addrs lanes trimmed w =>
    refine keeps_boundEntry room (entry _) (boundWindow_newEntry_admitted acc addrs lanes trimmed w)
      (fun i hi => inForce_of_dataVerdict (hi ▸ hv)) ?_ ?_ ?_ <;>
    cases trimmed <;> cases w <;> rfl
  | allAborted =>
    refine .before (keeps_enterPending ?_ (entry _) (boundWindow_newEntry_other acc rfl))
      (keeps_setPort_flags (s := s))
    rw [applyVerdict, State.port_setPort_self]
    exact room
  | refused reason w =>
    refine .before (keeps_enterPending ?_ (entry _) (boundWindow_newEntry_other acc rfl)) (keeps_faultEvent _ _ _ _ _ s)
    rw [applyVerdict, faultEvent_pending]
    exact room

theorem keeps_refuseControl {p : Port} {acc : Access} {reason : Reason} {s : State}
    (room : (s.port p).pending.length < 2) : Keeps none s (refuseControl p acc reason s) := by
  refine .before (keeps_enterPending ?_ (newEntry_progress _ _) (boundWindow_newEntry_other acc rfl))
    (keeps_faultEvent _ _ _ _ _ s)
  rw [faultEvent_pending]
  exact room

theorem keeps_serveReply {loose : Option Port} (p : Port) (s : State) : Keeps loose s (serveReply p s).2 := by
  unfold serveReply
  split
  · exact .refl _ s
  · exact keeps_of_quiet

theorem keeps_serveControl {p : Port} {acc : Access} {s : State} (room : (s.port p).pending.length < 2) :
    Keeps none s (serveControl p acc s) := by
  have read : Keeps none s (controlRead p acc s).2 :=
    by
      unfold controlRead
      split
      · exact keeps_serveReply p s
      · split <;> exact .refl _ s
  refine .before (keeps_enterPending ?_ (newEntry_progress _ _) (boundWindow_newEntry_other acc rfl)) read
  rw [Bursts.pending_of_stage (Bursts.stage_controlRead p acc s)]
  exact room

theorem keeps_acceptControl {p : Port} {acc : Access} {s : State} (room : (s.port p).pending.length < 2) :
    Keeps none s (acceptControl p acc s) := by
  unfold acceptControl
  refine keeps_ite (keeps_refuseControl room) (keeps_ite (keeps_refuseControl room) ?_)
  split
  · exact keeps_serveControl room
  · exact keeps_enterPending room (newEntry_progress _ _) (boundWindow_newEntry_other acc rfl)

/-! ## An entry changed in its place (R5, R7) -/

theorem waiting_not_executing {e : Entry} (h : e.progress = .waitingData) : e.progress ≠ .executing := by
  rw [h]; decide

/-- The oldest entry that waits for data stands at its place. -/
theorem get_of_oldestWaiting {l : List Entry} {n : Nat} {e : Entry} (h : oldestWaiting l = some (n, e)) :
    l[n]? = some e ∧ e.progress = .waitingData := by
  induction l generalizing n with
  | nil => cases h
  | cons x xs ih =>
    unfold oldestWaiting at h
    split at h
    · rename_i waits
      cases h
      exact ⟨rfl, by simpa using waits⟩
    · obtain ⟨⟨m, y⟩, hm, k⟩ := Option.map_eq_some_iff.1 h
      cases k
      exact ih hm

/-- An entry of port `p` that is not under way is replaced by one with the same binding; the departure follows. -/
theorem keeps_setEntry {p : Port} {n : Nat} {e x : Entry} {s : State} (h : (s.port p).pending[n]? = some e)
    (he : e.progress ≠ .executing) (hx : x.progress ≠ .executing) (binding : boundWindow x = boundWindow e) :
    Keeps (some p) s (setEntry p n x s) :=
  keeps_setPort ⟨follows_set h he hx fun i => by rw [binding]; rfl, id, fun k => absurd rfl k⟩

/-- An entry replaced by one that waits on. -/
theorem keeps_setEntry_unsettled {p : Port} {n : Nat} {e x : Entry} {s : State} (h : (s.port p).pending[n]? = some e)
    (he : e.progress ≠ .executing) (hx : x.progress ≠ .executing) (binding : boundWindow x = boundWindow e)
    (waits : x.progress ≠ .settled) : Keeps none s (setEntry p n x s) := by
  refine keeps_setPort ⟨follows_set h he hx fun i => by rw [binding]; rfl, id, fun _ front => ?_⟩
  obtain ⟨older, younger, list, rfl⟩ := split_of_get h
  have set : (s.port p).pending.set older.length x = older ++ x :: younger := by rw [list]; simp
  rw [list] at front
  rw [set]
  cases older with
  | nil => exact fun y ys k => by cases k; exact waits
  | cons z zs => exact fun y ys k => by cases k; exact front _ _ rfl

/-- An entry that holds no binding is settled. -/
theorem keeps_settled {p : Port} {n : Nat} {e x : Entry} {s : State} (h : (s.port p).pending[n]? = some e)
    (he : e.progress ≠ .executing) (free : boundWindow e = none) (hx : x.progress = .settled) :
    Keeps (some p) s (setEntry p n x s) :=
  keeps_setEntry h he (by rw [hx]; decide) (by rw [free]; simp [boundWindow, hx])

theorem boundWindow_of_decision {e : Entry} (h : e.decision.boundWindow = none) : boundWindow e = none := by
  rw [← binding_eq, Entry.binding, h, ite_self]

/-! ## Data deadlines (R6) -/

theorem get_setPort_pending {p : Port} {n : Nat} {e : Entry} {s : State} {x : Piu}
    (h : (s.port p).pending[n]? = some e) (pending : x.pending = (s.port p).pending) :
    ((s.setPort p x).port p).pending[n]? = some e := by
  rw [State.port_setPort_self, pending]
  exact h

/-- A bound entry that waits is settled and its binding ends. -/
theorem keeps_released {p : Port} {n : Nat} {e x : Entry} {s : State} (h : (s.port p).pending[n]? = some e)
    (he : e.progress ≠ .executing) (hx : x.progress = .settled) (w : Option WinIdx) (bind : boundWindow e = w) :
    Keeps (some p) s (releaseBound w (setEntry p n x s)) := by
  refine keeps_of_port (gone := ties w) (come := noTies)
    (x := { s.port p with pending := (s.port p).pending.set n x })
    ⟨follows_set h he (by rw [hx]; decide) fun i => ?_, id, fun k => absurd rfl k⟩ (portsStand_releaseBound w _)
    (fun table => ?_) (fun table i => ?_)
  · rw [ties_settled hx, bind, Nat.zero_add]
  · have table : Table none [] (setEntry p n x s) := table
    have := table_unboundFrom (b := w) table
    rwa [← releaseBound_eq w _ table.engine] at this
  · have table : Table none [] (setEntry p n x s) := table
    have := flights_unboundFrom w (setEntry p n x s) i
    rwa [← releaseBound_eq w _ table.engine] at this

theorem keeps_deadlineSettled {p : Port} {n : Nat} {e : Entry} {s : State} (h : (s.port p).pending[n]? = some e)
    (waits : e.progress = .waitingData) : Keeps (some p) s (deadlineSettled p n e s) := by
  have he := waiting_not_executing waits
  refine .before (t := s.setPort p { s.port p with discard := (s.port p).discard + e.missing }) ?_ keeps_setPort_flags
  have standing := get_setPort_pending (x := { s.port p with discard := (s.port p).discard + e.missing }) h rfl
  unfold deadlineSettled deadlineOutcome
  simp only
  split
  · rename_i w dec
    refine (keeps_faultEvent _ _ _ _ _ _).before (keeps_released standing he rfl w ?_)
    simp [boundWindow, waits, dec]
  · rename_i dec
    exact (keeps_faultEvent _ _ _ _ _ _).before
      (keeps_settled standing he (boundWindow_of_decision (by rw [dec]; rfl)) rfl)
  · rename_i dec
    exact (keeps_faultEvent _ _ _ _ _ _).before
      (keeps_settled standing he (boundWindow_of_decision (by rw [dec]; rfl)) rfl)
  · rename_i dec
    exact keeps_settled standing he (boundWindow_of_decision (by rw [dec]; rfl)) rfl
  · exact .refl _ _

theorem deadlineEntry_some {test : Nat → Bool} {p : Port} {n : Nat} {s : State} {e : Entry}
    (h : deadlineEntry test p n s = some e) : (s.port p).pending[n]? = some e ∧ e.progress = .waitingData := by
  unfold deadlineEntry at h
  split at h
  · rename_i x get
    split at h
    · rename_i met
      cases h
      exact ⟨get, by simpa using (Bool.and_eq_true_iff.1 met).1⟩
    · cases h
  · cases h

theorem keeps_deadlineIf (test : Nat → Bool) (p : Port) (n : Nat) (s : State) :
    Keeps none s (deadlineIf test p n s) := by
  unfold deadlineIf
  split
  · rename_i e due
    obtain ⟨get, waits⟩ := deadlineEntry_some due
    exact (keeps_deadlineSettled get waits).depart
  · exact .refl _ s

/-- The counts of an LCLK period (R6, R69). -/
theorem keeps_countPeriod (s : State) : Keeps none s (countPeriod s) := by
  have lowered (u : State) (p : Port) : Keeps none u (u.setPort p (u.port p).countDown) := by
    have progress (e : Entry) : e.countDown.progress = e.progress := by
      unfold Entry.countDown
      split <;> rfl
    have binding (e : Entry) : boundWindow e.countDown = boundWindow e := by
      unfold Entry.countDown
      split <;> rfl
    refine keeps_setPort ⟨follows_map progress binding _, id, fun _ front => ?_⟩
    intro e es list
    cases old : (u.port p).pending with
    | nil => simp [Piu.countDown, old] at list
    | cons x xs =>
      simp only [Piu.countDown, old, List.map_cons, List.cons.injEq] at list
      rw [← list.1, progress]
      exact front x xs old
  have ports := (((lowered s .a).trans (lowered _ .b)).trans (lowered _ .c)).trans (lowered _ .d)
  exact ports.trans (keeps_of_quiet)

end Sys2Proof.Keeping
end

section
/-! PROOFS. Windows, scopes and requests (spec/02, 04, 05, 06): what the owners of control writes and the actions do
keeps the invariants. -/

namespace Sys2Proof.Keeping
open Sys2Proof.Machine Sys2Proof.Safety Sys2Proof.Tables Sys2Proof.Ticks

/-! ## Windows (R26 to R36, R83) -/

theorem keeps_enterDraining {loose : Option Port} {i : WinIdx} {s : State} (can : changeable (s.win i)) :
    Keeps loose s (enterDraining i s) :=
  keeps_of_tables (portsStand_enterDraining i s)
    (fun h => by rw [enterDraining_eq i s h.engine]; exact h.anyDue.retired can)
    fun h => by rw [enterDraining_eq i s h.engine]; exact sameFlights_retired i s

theorem keeps_enterHeld {loose : Option Port} {i : WinIdx} {s : State} (can : changeable (s.win i)) :
    Keeps loose s (enterHeld i s) :=
  keeps_of_tables (portsStand_enterHeld i s)
    (fun h => by rw [enterHeld_eq]; exact h.anyDue.inPhase can (.inl ⟨rfl, rfl⟩))
    fun _ => by rw [enterHeld_eq]; exact sameFlights_inPhase i _ _ s

theorem changeable_of_renewable {w : Window} (h : w.phase = .held ∨ w.phase = .taper ∨ w.phase = .lapsed) :
    changeable w := .inr h

theorem keeps_renewWindow {loose : Option Port} {i : WinIdx} {s : State} (can : changeable (s.win i))
    (budget : Code) : Keeps loose s (renewWindow i budget s) := by
  refine .before (t := enterHeld i s) ?_ (keeps_enterHeld can)
  have held : ((enterHeld i s).win i).phase = .held := by
    rw [enterHeld_eq, (turned_inPhase i _ _ s).self]
  exact keeps_of_tables (portsStand_setWin i _ _) (fun h => h.budgeted budget (by rw [held]; decide))
    fun _ => sameFlights_of_turned (turned_setWin fun _ => rfl) rfl

/-- A creation puts a window without bindings in the place of a FREE one. -/
theorem sameFlights_created {i : WinIdx} {n : NewWindow} {s : State} (h : Table none [] s)
    (free : (s.win i).phase = .free) : SameFlights s (created i n s) := by
  obtain ⟨ph, c, -, turned, -⟩ := created_eq i n s
  exact sameFlights_of_turned turned (by rw [(h.windows i).free free]; rfl)

theorem keeps_createWindow {loose : Option Port} (n : NewWindow) (s : State) :
    Keeps loose s (createWindow n s).1 := by
  have stand := portsStand_createWindow n s
  cases fine : creationFault n s with
  | some code => rw [Actions.createWindow_of_fault fine]; exact .refl _ s
  | none =>
    cases first : freeWindow s with
    | none => simp only [createWindow, fine, first]; exact .refl _ s
    | some i =>
      have free : (s.win i).phase = .free := by simpa using List.find?_some first
      simp only [createWindow, fine, first, actionDone, enterFirst_newRecord] at stand ⊢
      exact keeps_of_tables stand (fun h => h.created fine free) fun h => sameFlights_created h free

theorem sameFlights_applyAmend (i : WinIdx) (a : ActionRecord) (s : State) : SameFlights s (applyAmend i a s) := by
  have orphaned := orphaned_foldl i (s.win i).ports a.ports (l := allPorts) (by decide) s
  intro j
  unfold applyAmend
  rw [win_setWin]
  split
  · rename_i hj
    subst hj
    rw [orphaned.self]
    rfl
  · rename_i hj
    rw [orphaned.others j hj]

theorem keeps_amendWindow {loose : Option Port} (a : ActionRecord) (i : WinIdx) (s : State) :
    Keeps loose s (amendWindow a i s).1 := by
  by_cases can : changeable (s.win i)
  · rw [Actions.amendWindow_of_changeable can]
    split
    · exact .refl _ s
    · rename_i some_port
      split
      · exact .refl _ s
      · rename_i fine
        exact keeps_of_tables (portsStand_applyAmend i a s)
          (fun h => h.amended can some_port (Bool.eq_false_iff.2 fine)) fun _ => sameFlights_applyAmend i a s
  · rw [Actions.amendWindow_of_other can]
    exact .refl _ s

/-- A release that is carried out (R34). -/
theorem keeps_releaseHold {loose : Option Port} {p : Port} {i : WinIdx} {s : State}
    (holds : holdsGrant (s.win i) p) (standing : (s.win i).retiring = false) : Keeps loose s (releaseHold p i s) := by
  have can : changeable (s.win i) := by
    have occupied := holds.1
    unfold changeable
    cases ph : (s.win i).phase <;> simp_all [Window.retiring]
  unfold releaseHold
  simp only
  split
  · exact keeps_enterDraining can
  · rename_i others
    refine keeps_of_tables ((portsStand_setWin i _ _).before (portsStand_orphanPort i p s))
      (fun h => h.left holds others) fun _ => ?_
    have orphaned : SameFlights s (orphanPort i p s) := sameFlights_of_turned (turned_setWin fun _ => rfl) rfl
    exact orphaned.trans (sameFlights_of_turned (turned_setWin fun _ => rfl) rfl)

/-! ## Scope stacks (R111 to R118) -/

theorem keeps_emptyStack {loose : Option Port} (p : Port) (s : State) : Keeps loose s (emptyStack p s) :=
  keeps_of_tables (portsStand_emptyStack p s) (fun h => h.emptyStack p)
    fun _ i => by rw [(emptyStack_eq p s).2.1 i]

/-- A frame over a GRANT in force is pushed (R111). -/
theorem keeps_pushFrame {loose : Option Port} {p : Port} {i : WinIdx} {c : Rights} {s : State}
    (holds : holdsGrant (s.win i) p) (inForce : (s.win i).phase = .held ∨ (s.win i).phase = .taper) :
    Keeps loose s (pushFrame p i c s) :=
  keeps_of_tables .same
    (fun h => h.pushed (p := p) (f := ⟨i, c, (s.win i).portBase, (s.win i).sizeClass, false⟩) rfl
      ⟨holds, inForce, rfl, rfl⟩)
    fun _ => sameFlights_of_turned (turned_setWin fun _ => rfl) rfl

/-! ## The owners of control writes (R12) -/

/-- An owner keeps the invariants and leaves the sequencer, and of its port the pending list and the responses sent. -/
structure Owns (p : Port) (s : State) (out : OwnerOut) : Prop where
  keeps : Keeps none s out.1
  pending : (out.1.port p).pending = (s.port p).pending
  sent : (out.1.port p).sent = (s.port p).sent
  seq : out.1.seq = s.seq
  engine : engineMatches s → engineMatches out.1

theorem owns_refused {p : Port} {s : State} (reason : Reason) (w : Option WinIdx) :
    Owns p s (ownerRefused s reason w) := ⟨.refl _ s, rfl, rfl, rfl, id⟩

theorem owns_ok {p : Port} {s t : State} (keeps : Keeps none s t) (stand : PortsStand s t) : Owns p s (ownerOk t) :=
  ⟨keeps, by rw [ownerOk, stand.port], by rw [ownerOk, stand.port], stand.seq, stand.engine⟩

theorem owns_ite {c : Prop} [Decidable c] {p : Port} {s : State} {x y : OwnerOut} (h : c → Owns p s x)
    (k : ¬ c → Owns p s y) : Owns p s (if c then x else y) := by
  split
  · rename_i hc; exact h hc
  · rename_i hc; exact k hc

theorem keeps_requestArrival {loose : Option Port} (r : Request) (s : State) : Keeps loose s (requestArrival r s) :=
  keeps_ite keeps_of_quiet (keeps_ite keeps_of_quiet keeps_of_quiet)

/-- A request that needs a ticket arrives, or is refused NO_TICKET (R85, R91). -/
theorem owns_ticketed {c : Prop} [Decidable c] (p : Port) (r : Request) (w : Option WinIdx) (s : State) :
    Owns p s (if c then ownerRefused s .noTicket w else ownerOk (requestArrival r s)) :=
  owns_ite (fun _ => owns_refused _ _) fun _ => owns_ok (keeps_requestArrival r s) (portsStand_requestArrival r s)

theorem owns_renewByPort (p : Port) (i : WinIdx) (tag : Tag) (s : State) : Owns p s (renewByPort p i tag s) := by
  unfold renewByPort
  refine owns_ite (fun _ => owns_refused _ _) fun _ => ?_
  have renews (can : changeable (s.win i)) : Owns p s (if (s.win i).renewBudget = 0 then makeExtend p i tag s
      else ownerOk (renewWindow i (spentBudget (s.win i).renewBudget) s)) :=
    owns_ite (fun _ => owns_ticketed p ⟨p, tag, .extend i, s.clock.time⟩ (some i) s)
      fun _ => owns_ok (keeps_renewWindow can _) (portsStand_renewWindow i _ s)
  cases ph : (s.win i).phase with
  | held => exact renews (.inr (.inl ph))
  | taper => exact renews (.inr (.inr (.inl ph)))
  | free | arming | lapsed | draining | scrubWait | scrubbing => exact owns_refused _ _

theorem owns_carryRenew (p : Port) (words : List Word) (s : State) : Owns p s (carryRenew p words s) := by
  unfold carryRenew
  simp only
  split
  · exact owns_refused _ _
  · exact owns_renewByPort _ _ _ s

theorem owns_carryWithdraw (p : Port) (words : List Word) (s : State) : Owns p s (carryWithdraw p words s) :=
  owns_ite (fun _ => ⟨keeps_of_quiet, rfl, rfl, rfl, id⟩) fun _ => owns_refused _ _

theorem owns_carryRelease (p : Port) (words : List Word) (s : State) : Owns p s (carryRelease p words s) := by
  unfold carryRelease
  split
  · exact owns_refused _ _
  · rename_i i _
    refine owns_ite (fun _ => owns_refused _ _) fun holds => owns_ite (fun _ => owns_refused _ _) fun standing => ?_
    have holds : holdsGrant (s.win i) p := (Admission.grantTo_iff _ _).1 (by simpa using holds)
    exact owns_ok (keeps_releaseHold holds (Bool.eq_false_iff.2 standing)) (portsStand_releaseHold p i s)

theorem owns_pushOver {p : Port} {i : WinIdx} {c : Rights} {s : State} (holds : holdsGrant (s.win i) p)
    (inForce : (s.win i).phase = .held ∨ (s.win i).phase = .taper) : Owns p s (pushOver p i c s) := by
  have done : Owns p s (ownerOk (pushFrame p i c s)) := owns_ok (keeps_pushFrame holds inForce) .same
  unfold pushOver
  split
  · exact done
  · exact owns_ite (fun _ => owns_refused _ _) fun _ => owns_ite (fun _ => owns_refused _ _) fun _ => done

theorem owns_carryPush (p : Port) (words : List Word) (s : State) : Owns p s (carryPush p words s) := by
  unfold carryPush
  refine owns_ite (fun _ => owns_refused _ _) fun _ => owns_ite (fun _ => owns_refused _ _) fun fine => ?_
  split
  · exact owns_refused _ _
  · rename_i i hi
    rw [hi, ControlWrites.pushBad_some_iff, not_or, not_not] at fine
    exact owns_pushOver fine.2.1 fine.2.2

theorem owns_carryPop (p : Port) (words : List Word) (s : State) : Owns p s (carryPop p words s) := by
  unfold carryPop
  split
  · exact owns_refused _ _
  · rename_i f fs stack
    refine owns_ok (keeps_of_tables ?_ (fun h => h.popped stack) fun _ => ?_) ?_
    · exact portsStand_ite .same .same
    · intro i
      split
      · rfl
      · have lowered : SameFlights s (lowerRef f.window { s with scopes := s.scopes.set p fs }) :=
          sameFlights_of_turned (turned_setWin fun _ => rfl) rfl
        exact lowered i
    · exact portsStand_ite .same .same

theorem owns_ownerOf (n : Nat) (p : Port) (words : List Word) (s : State) : Owns p s (ownerOf n p words s) := by
  unfold ownerOf
  split
  · exact owns_ticketed p
      ⟨p, newTag (words.getD 0 0), .new (newFieldsOf (words.getD 0 0) (words.getD 1 0)), s.clock.time⟩ none s
  · exact owns_carryRenew p words s
  · exact owns_carryWithdraw p words s
  · exact owns_carryRelease p words s
  · exact owns_carryPush p words s
  · exact owns_carryPop p words s
  · refine ⟨keeps_setPort_flags, ?_, ?_, rfl, id⟩
    · rw [carryClearFlags, ownerOk, State.port_setPort_self]
      rfl
    · rw [carryClearFlags, ownerOk, State.port_setPort_self]
      rfl
  · exact ⟨.refl _ s, rfl, rfl, rfl, id⟩

/-- The owner carries a routed control write out and its entry is settled (R12). -/
theorem keeps_carryRouted {n : Nat} {p : Port} {place : Nat} {e : Entry} {w : Word} {s : State}
    (get : (s.port p).pending[place]? = some e) (waits : e.progress = .waitingData) (routed : e.decision = .routed) :
    Keeps (some p) s (carryRouted (ownerOf n) p place e w s) := by
  have owned := owns_ownerOf n p (e.kept ++ [w]) s
  have there := get
  rw [← owned.pending] at there
  have free : boundWindow e = none := boundWindow_of_decision (by rw [routed]; rfl)
  refine .before ?_ (owned.keeps.loosen _)
  unfold carryRouted settleRouted
  split
  · exact keeps_settled there (waiting_not_executing waits) free rfl
  · exact (keeps_faultEvent _ _ _ _ _ _).before (keeps_settled there (waiting_not_executing waits) free rfl)

theorem routedBeatDue_some {s : State} {p : Port} {place : Nat} {e : Entry} (h : routedBeatDue s p = some (place, e)) :
    (s.port p).pending[place]? = some e ∧ e.progress = .waitingData ∧ e.decision = .routed := by
  unfold routedBeatDue at h
  split at h
  · split at h
    · rename_i place' e' found
      split at h
      · rename_i routed
        cases h
        obtain ⟨get, waits⟩ := get_of_oldestWaiting found
        exact ⟨get, waits, by simpa using (Bool.and_eq_true_iff.1 routed).1⟩
      · cases h
    · cases h
  · cases h

/-- The row of the control write at aperture word `n`. -/
theorem keeps_controlWrite (n : Nat) (p : Port) (w : Word) (s : State) :
    Keeps none s (controlWrite (ownerOf n) n p w s) := by
  unfold controlWrite
  split
  · rename_i place e due
    obtain ⟨get, waits, routed⟩ := routedBeatDue_some (Option.filter_eq_some_iff.1 due).1
    exact (keeps_grantDecision _).before (keeps_carryRouted get waits routed).depart
  · exact .refl _ s

/-! ## Data beats (R5, R7) -/

theorem takeBeat_boundWindow (e : Entry) (w : Word) : boundWindow (e.takeBeat w) = boundWindow e := rfl

theorem keeps_dataBeat (p : Port) (w : Word) (s : State) : Keeps none s (dataBeat p w s) := by
  unfold dataBeat
  refine keeps_ite keeps_setPort_flags ?_
  split
  · rename_i place e found
    obtain ⟨get, waits⟩ := get_of_oldestWaiting found
    have he := waiting_not_executing waits
    have waits' : (e.takeBeat w).progress = .waitingData := waits
    unfold beatToEntry
    refine keeps_ite (keeps_setEntry_unsettled get he he rfl (by rw [waits']; decide)) ?_
    have stands (x : Entry) (hx : x.progress ≠ .executing) (binding : boundWindow x = boundWindow e) :
        Keeps none s (depart p (setEntry p place x s)) := (keeps_setEntry get he hx binding).depart
    cases dec : e.decision with
    | routed => exact (keeps_carryRouted get waits dec).depart
    | admitted addrs lanes trimmed bound =>
      have complete : (e.takeBeat w).dataComplete = { e.takeBeat w with progress := .ready, deadlineCount := none } := by
        simp only [Entry.dataComplete, Entry.takeBeat, dec]
      refine stands _ (by rw [complete]; simp) ?_
      rw [complete]
      simp [boundWindow, Entry.takeBeat, waits, dec]
    | allAborted =>
      have complete : (e.takeBeat w).dataComplete = (e.takeBeat w).settle trimmedResponse := by
        simp only [Entry.dataComplete, Entry.takeBeat, dec]
      rw [complete]
      exact (keeps_settled get he (boundWindow_of_decision (by rw [dec]; rfl)) rfl).depart
    | refused reason =>
      have complete : (e.takeBeat w).dataComplete = (e.takeBeat w).settle (refusedResponse e.access reason) := by
        simp only [Entry.dataComplete, Entry.takeBeat, dec]
      rw [complete]
      exact (keeps_settled get he (boundWindow_of_decision (by rw [dec]; rfl)) rfl).depart
    | served word =>
      have complete : (e.takeBeat w).dataComplete = e.takeBeat w := by
        simp only [Entry.dataComplete, Entry.takeBeat, dec]
      rw [complete]
      exact stands _ he rfl
  · exact .refl _ s

/-! ## Ticks and expiries (R78) -/

theorem kept_leaseTick (s : State) : Kept none s (leaseTick s) := by
  have stand : PortsStand (advanceTime s) (leaseTick s) := portsStand_expireReached _ _
  refine kept_of_tables stand.piu stand.seq (by rw [stand.faults]; exact id) stand.engine table_ticked fun h => ?_
  rw [leaseTick_eq (splits_of_table h) h.engine]
  exact sameFlights_expiries _ _

theorem time_leaseTick (s : State) : (leaseTick s).clock.time = s.clock.time + 1 :=
  (portsStand_expireReached _ _).time

/-- An expiry whose deadline is reached before the tick: the expiry list of tables in line has none. -/
theorem keeps_expireHead {s : State} {e : Expiry} {rest : List Expiry} (list : s.clock.expiry = e :: rest)
    (reached : deadlineReached s.clock.time e.deadline = true) : Keeps none s (expireHead e s) := by
  have never (h : Table none [] s) : False := by
    have member : e ∈ s.clock.expiry := by rw [list]; exact List.mem_cons_self
    have ahead := (h.expiry.ahead e member).resolve_right (by simp)
    have near := h.expiry.near e member
    rw [deadlineReached_of_ahead ahead (by omega)] at reached
    cases reached
  exact keeps_of_tables (portsStand_expireHead e s) (fun h => (never h).elim) fun h => (never h).elim

end Sys2Proof.Keeping
end

section
/-! PROOFS. LCLK periods, expiry events, resets and completions (spec/01, spec/04, spec/07, spec/10): each keeps the
invariants, or puts the reset values in their place. -/

namespace Sys2Proof.Keeping
open Sys2Proof.Machine Sys2Proof.Safety Sys2Proof.Tables Sys2Proof.Ticks

/-! ## LCLK periods and expiry events (R69, R78) -/

/-- At most one tick was taken. -/
def Periods (s t : State) : Prop := Keeps none s t ∨ Kept none s t ∧ t.clock.time = s.clock.time + 1

theorem Periods.after {s t u : State} (h : Keeps none s t) (k : Periods t u) : Periods s u :=
  k.imp h.trans fun ⟨k, time⟩ => ⟨h.toKept.trans k, by rw [time, h.time]⟩

theorem Periods.thenKeeps {s t u : State} (h : Periods s t) (k : Keeps none t u) : Periods s u :=
  h.imp (fun h => h.trans k) fun ⟨h, time⟩ => ⟨h.trans k.toKept, by rw [k.time, time]⟩

/-- Parts of a period in which no tick is due. -/
theorem keeps_runParts (parts : List LclkPart) (s : State) : Keeps none s (parts.foldl runPart (s, false)).1 := by
  induction parts generalizing s with
  | nil => exact .refl _ s
  | cons part parts ih =>
    cases part with
    | tick => exact ih s
    | deadline p place => exact (keeps_deadlineIf _ p place s).trans (ih _)
    | grant => exact (keeps_grantDecision s).trans (ih _)

/-- Parts of a period in which a tick is due: it is taken at most once. -/
theorem periods_runParts (parts : List LclkPart) (s : State) : Periods s (parts.foldl runPart (s, true)).1 := by
  induction parts generalizing s with
  | nil => exact .inl (.refl _ s)
  | cons part parts ih =>
    cases part with
    | tick => exact Periods.thenKeeps (.inr ⟨kept_leaseTick s, time_leaseTick s⟩) (keeps_runParts parts _)
    | deadline p place => exact .after (keeps_deadlineIf _ p place s) (ih _)
    | grant => exact .after (keeps_grantDecision s) (ih _)

theorem lclkPeriod_of_due (order : List LclkPart) (s : State) : Periods s (lclkPeriod order s) := by
  unfold lclkPeriod
  refine Periods.after (keeps_countPeriod s) (Periods.thenKeeps ?_ (keeps_grantDecision _))
  cases tickDue s
  · exact .inl (keeps_runParts _ _)
  · exact periods_runParts _ _

theorem lclkPeriod_of_notDue (order : List LclkPart) {s : State} (h : tickDue s = false) :
    Keeps none s (lclkPeriod order s) := by
  unfold lclkPeriod
  rw [h]
  exact (keeps_grantDecision _).before ((keeps_runParts _ _).before (keeps_countPeriod s))

/-- An expiry event is a tick that is due, and otherwise no tick (log 17). -/
theorem expiryEvent_cases (ph : Phase) (i : WinIdx) (s : State) : Keeps none s (expiryEvent ph i s) ∨
    clockActs s = true ∧ tickDue s = true ∧ expiryEvent ph i s = grantDecision (leaseTick s) := by
  unfold expiryEvent
  cases acts : clockActs s
  · exact .inl (.refl _ s)
  cases due : expiryDueAt s.clock.time ph i s
  · cases tick : tickDue s && expiryDueAt (s.clock.time + 1) ph i s
    · exact .inl (.refl _ s)
    · exact .inr ⟨rfl, (Bool.and_eq_true_iff.1 tick).1, rfl⟩
  · left
    unfold expiryDueAt at due
    cases list : s.clock.expiry with
    | nil => exact .refl _ s
    | cons e rest =>
      rw [list] at due
      exact (keeps_expireHead list (Bool.and_eq_true_iff.1 due).2).trans (keeps_grantDecision _)

/-! ## Port resets (R15) -/

/-- What a port reset discards. -/
def discarded (l : List Entry) : List Entry := l.filter fun e => !e.underWay

theorem underWay_iff (e : Entry) : e.underWay = true ↔ e.progress = .executing := by simp [Entry.underWay]

theorem follows_resetLine {p : Port} {burst : Option Burst} (u : Piu) :
    Follows p burst (fun i => bound i (discarded u.pending)) noTies u.pending u.resetLine.pending := by
  have kept : u.resetLine.pending = (u.pending.filter Entry.underWay).map fun e => { e with dropped := true } := rfl
  rw [kept]
  refine ⟨fun i => ?_, fun line => ?_, fun room => ?_⟩
  · have mapped : bound i ((u.pending.filter Entry.underWay).map fun e => { e with dropped := true }) =
        bound i (u.pending.filter Entry.underWay) := by
      rw [bound, List.countP_map]; rfl
    rw [mapped]
    induction u.pending with
    | nil => rfl
    | cons e l ih =>
      simp only [discarded, noTies] at ih ⊢
      cases he : e.underWay
      · rw [List.filter_cons_of_neg (by simp [he]), List.filter_cons_of_pos (by simp [he]), bound_cons, bound_cons]
        omega
      · rw [List.filter_cons_of_pos he, List.filter_cons_of_neg (by simp [he]), bound_cons, bound_cons]
        omega
  · have none (l : List Entry) (h : Waiting l) : l.filter Entry.underWay = [] :=
      List.filter_eq_nil_iff.2 fun e he => by rw [underWay_iff]; exact h e he
    cases list : u.pending with
    | nil => rw [list] at line; exact line
    | cons e es =>
      rw [list] at line
      obtain ⟨front, tail⟩ := line
      have gone : es.filter Entry.underWay = [] := none es tail
      cases he : e.underWay
      · rw [List.filter_cons_of_neg (by simp [he]), gone]
        have : e.progress ≠ .executing := fun k => by rw [(underWay_iff e).2 k] at he; cases he
        exact ⟨(if_neg this).symm.trans front, fun x hx => by cases hx⟩
      · rw [List.filter_cons_of_pos he, gone]
        exact ⟨front, fun x hx => by cases hx⟩
  · rw [List.length_map]
    exact (List.length_filter_le _ _).trans room

theorem front_resetLine (u : Piu) : FrontOk u.resetLine.pending := by
  intro e es list
  have member : e ∈ (u.pending.filter Entry.underWay).map fun e => { e with dropped := true } := by
    rw [show ((u.pending.filter Entry.underWay).map fun e => { e with dropped := true }) = e :: es from list]
    exact List.mem_cons_self
  obtain ⟨x, hx, rfl⟩ := List.mem_map.1 member
  have : x.progress = .executing := (underWay_iff x).1 (List.mem_filter.1 hx).2
  change x.progress ≠ .settled
  rw [this]
  decide

theorem bound_discardOrder (i : WinIdx) (order : DiscardOrder) (l : List Entry) :
    bound i (discardOrder order l) = bound i l := by
  cases order
  · rfl
  · exact List.countP_reverse

/-- Entries of port `p` leave its list and their bindings end. -/
theorem keeps_releaseEntries {loose : Option Port} {p : Port} {s : State} {x : Piu} {es : List Entry}
    (fits : PortFits loose p s.seq.burst (fun i => bound i es) noTies (s.port p) x) :
    Keeps loose s (releaseEntries es (s.setPort p x)) := by
  refine keeps_of_port fits (portsStand_releaseEntries _ _) (fun h => ?_) fun h i => ?_
  · rw [releaseEntries_eq _ _ h.engine]; exact table_unboundAll h
  · rw [releaseEntries_eq _ _ h.engine]; exact flights_unboundAll es _ i

theorem keeps_portReset {loose : Option Port} (p : Port) (order : DiscardOrder) (s : State) :
    Keeps loose s (portReset p order s) := by
  unfold portReset
  refine (keeps_emptyStack p _).before ((keeps_of_quiet (t := dropRequests p _)).before (keeps_releaseEntries
    ⟨?_, fun _ => iff_of_true rfl rfl, fun _ _ => front_resetLine _⟩))
  have gone : (fun i => bound i (discardOrder order ((s.port p).pending.filter fun e => !e.underWay))) =
      fun i => bound i (discarded (s.port p).pending) := funext fun i => bound_discardOrder i order _
  rw [gone]
  exact follows_resetLine _

theorem front_portReset (p : Port) (order : DiscardOrder) (s : State) :
    FrontOk ((portReset p order s).port p).pending := by
  have stand := (portsStand_releaseEntries (discardOrder order ((s.port p).pending.filter fun e => !e.underWay))
    (s.setPort p (s.port p).resetLine)).port p
  have port : (portReset p order s).port p = (s.port p).resetLine := by
    rw [portReset, (portsStand_emptyStack p _).port]
    exact stand.trans (State.port_setPort_self _ _ _)
  rw [port]
  exact front_resetLine _

theorem keeps_meetReset (p : Port) (s : State) (meeting : ResetMeeting) :
    Keeps (some p) s (meetReset p s meeting) := by
  unfold meetReset
  split
  · split
    · rename_i e due
      obtain ⟨get, waits⟩ := deadlineEntry_some due
      exact keeps_ite (keeps_deadlineSettled get waits) (.refl _ s)
    · exact .refl _ s
  · split
    · rename_i place e due
      obtain ⟨get, waits, routed⟩ := routedBeatDue_some due
      exact keeps_carryRouted get waits routed
    · exact .refl _ s

/-- A line asserted after the events that meet the assertion (R15, log 28). -/
theorem keeps_portResetAssert (p : Port) (order : ResetOrder) (s : State) : Keeps none s
    (grantDecision (portReset p order.discards (order.first.foldl (meetReset p) s))) :=
  ((keeps_foldl (keeps_meetReset p) order.first s).thenFront (keeps_portReset p order.discards _)
    (front_portReset p order.discards _)).trans (keeps_grantDecision _)

/-! ## The reset values -/

/-- A state in which every invariant holds, at lease time 0. -/
structure Fresh (t : State) : Prop where
  sound : Sound t
  places : Places t
  front : ∀ p, FrontOk (t.port p).pending
  time : t.clock.time = 0

theorem port_resetBlocks (s : State) (p : Port) : (resetBlocks s).port p = (s.port p).afterReset := by
  cases p <;> rfl

/-- Whatever stood before, the reset values satisfy the invariants. -/
theorem fresh_of_resetBlocks {s t : State} (piu : t.piu = (resetBlocks s).piu := by rfl)
    (windows : t.windows = State.reset.windows := by rfl) (scopes : t.scopes = State.reset.scopes := by rfl)
    (scrub : t.scrub = State.reset.scrub := by rfl) (clock : t.clock = State.reset.clock := by rfl)
    (seq : t.seq = State.reset.seq := by rfl) (faults : t.faults = State.reset.faults := by rfl) : Fresh t := by
  have port (p : Port) : t.port p = (s.port p).afterReset := by
    rw [State.port, piu]
    exact port_resetBlocks s p
  have pending (p : Port) : (t.port p).pending = [] := by rw [port]; rfl
  have win (i : WinIdx) : t.win i = State.reset.win i := by rw [State.win, windows]; rfl
  have base := sound_of_invariants PowerOn.reset_invariants
  refine ⟨⟨base.table.same win scopes (by rw [scrub]) (by rw [scrub]) (by rw [scrub]) (by rw [clock]) (by rw [clock]),
    fun i => ?_, fun p => ?_⟩, ⟨fun p => ?_, fun p => ?_, ?_, ?_, ?_⟩, fun p e es k => ?_, by rw [clock]; rfl⟩
  · have reset : (State.reset.win i).inFlight = 0 := by rw [PowerOn.reset_win]; rfl
    rw [win, reset]
    simp only [flying, pending, bound_nil, allPorts]
    rfl
  · rw [pending, seq]
    exact ⟨rfl, fun e he => by cases he⟩
  · rw [pending]; exact Nat.zero_le _
  · rw [port]
    change stateByLine (s.port p).line = .inReset ↔ (s.port p).line = true
    cases (s.port p).line <;> simp [stateByLine]
  · rw [seq]; exact Nat.zero_le _
  · rw [faults]; exact Nat.zero_le _
  · unfold engineMatches
    rw [scrub]
    exact PowerOn.reset_invariants.engine
  · rw [pending] at k; cases k

theorem fresh_softResetFinish (s : State) : Fresh (softResetFinish s) := fresh_of_resetBlocks (s := s)

/-! ## Soft resets (R17, R174) -/

theorem follows_aborted {p : Port} {burst : Option Burst} (free : granted p burst = none) (l : List Entry) :
    Follows p burst (fun i => bound i l) noTies l [] :=
  ⟨fun i => by simp [bound_nil, noTies], fun _ => ⟨free.symm, fun e he => by cases he⟩, fun _ => Nat.zero_le _⟩

/-- The entries of a port without a burst under way are answered ABORTED. -/
theorem keeps_abortPort {p : Port} {s : State} (free : granted p s.seq.burst = none) :
    Keeps none s (abortPort s p) :=
  keeps_releaseEntries ⟨follows_aborted free _, id, fun _ _ e es k => by cases k⟩

theorem seq_abortPort (p : Port) (s : State) : (abortPort s p).seq = s.seq :=
  (portsStand_releaseEntries _ _).seq

theorem keeps_abortAll {s : State} (free : ∀ p, granted p s.seq.burst = none) : Keeps none s (abortAll s) := by
  unfold abortAll
  induction allPorts generalizing s with
  | nil => exact .refl _ s
  | cons p l ih =>
    exact (keeps_abortPort (free p)).trans (ih fun q => by rw [seq_abortPort]; exact free q)

/-- A soft reset begins, or begins and ends at once with the SRAM idle. -/
theorem softResetBegin_cases (s : State) : Keeps none s (softResetBegin s) ∨ Fresh (softResetBegin s) := by
  unfold softResetBegin
  cases s.softReset
  · have begun : Keeps none s { s with softReset := true } := keeps_of_quiet
    cases hb : s.seq.burst with
    | none =>
      right
      simp only [hb]
      exact fresh_softResetFinish _
    | some b =>
      left
      cases source : b.source with
      | scrub =>
        simp only [hb, source]
        refine begun.trans (keeps_abortAll fun p => ?_)
        have under : ({ s with softReset := true } : State).seq.burst = some b := hb
        rw [under]
        exact granted_scrub source p
      | port p =>
        simp only [hb, source]
        exact begun
  · exact .inl (.refl _ s)

/-! ## Completions (R129, R130) -/

theorem portsStand_burstWrites (b : Burst) (s : State) : PortsStand s (burstWrites b s) := by
  unfold burstWrites
  split <;> exact .same

/-- The oldest entry of the port leaves, with the settled ones right behind it (R7, R8, R129). -/
theorem settleBurst_eq (p : Port) (data : List Word) (s : State) : ∃ sent, settleBurst p data s = s.setPort p
    { s.port p with pending := (s.port p).pending.tail.dropWhile isSettled, sent := sent } := by
  unfold settleBurst
  cases list : (s.port p).pending with
  | nil =>
    refine ⟨(s.port p).sent, ?_⟩
    have same : { s.port p with pending := ([] : List Entry).tail.dropWhile isSettled, sent := (s.port p).sent } =
        s.port p := by
      generalize s.port p = u at list
      cases u
      cases list
      rfl
    rw [same]
    exact (State.setPort_port s p).symm
  | cons e es =>
    simp only [depart_eq, followed, State.port_setPort_self, State.setPort_setPort, List.tail_cons]
    cases e.dropped
    · exact ⟨_, by simp [isSettled, Entry.settle]; rfl⟩
    · exact ⟨_, rfl⟩

theorem softReset_afterBurst_port (p : Port) (b : Burst) (s : State) :
    (settleBurst p (readData b s) (releaseBound b.bound (burstWrites b s))).softReset = s.softReset := by
  obtain ⟨sent, eq⟩ := settleBurst_eq p (readData b s) (releaseBound b.bound (burstWrites b s))
  have writes : (burstWrites b s).softReset = s.softReset := by
    unfold burstWrites
    split <;> rfl
  rw [eq, State.setPort_softReset, (lifeKept_releaseBound b.bound _).softReset, writes]

theorem table_burstWrites {b : Burst} {s : State} (h : Table none [] s) : Table none [] (burstWrites b s) := by
  unfold burstWrites
  split
  · exact h.same (fun _ => rfl) rfl rfl rfl rfl rfl rfl
  · exact h

theorem win_burstWrites (b : Burst) (s : State) (i : WinIdx) : (burstWrites b s).win i = s.win i := by
  unfold burstWrites
  split <;> rfl

/-- A port burst completes: its entry leaves with its binding, and the SRAM is idle (R129). -/
theorem keeps_portSettled {p : Port} {b : Burst} {s : State} (under : s.seq.burst = some b)
    (source : b.source = .port p) : Keeps none s
      (Bursts.idled (settleBurst p (readData b s) (releaseBound b.bound (burstWrites b s)))) := by
  have freed := (portsStand_releaseBound b.bound (burstWrites b s)).before (portsStand_burstWrites b s)
  obtain ⟨sent, eq⟩ := settleBurst_eq p (readData b s) (releaseBound b.bound (burstWrites b s))
  rw [freed.port] at eq
  rw [eq]
  refine keeps_of_burst (p := p) (gone := ties b.bound) (come := noTies) (q := { s.seq with burst := none })
    (x := { s.port p with pending := (s.port p).pending.tail.dropWhile isSettled, sent := sent })
    ⟨?_, ?_, freed.faults, freed.clock, freed.engine⟩ id (fun r hr => ?_) (fun line => ?_) (fun room => ?_) id
    (fun _ _ => frontOk_dropWhile _) (fun h => ?_) fun h i => ?_
  · exact congrArg (fun x : PerPort Piu => x.set p _) freed.piu
  · change { (releaseBound b.bound (burstWrites b s)).seq with burst := none } = _
    rw [freed.seq]
    rfl
  · rw [under]
    exact (granted_of_other (by rw [source]; exact fun k => hr (Source.port.inj k).symm)).symm
  · rw [under] at line
    obtain ⟨e, es, list, -, bind⟩ := under_eq_some.1 (line.1.trans (granted_eq_some.2 ⟨b, rfl, source, rfl⟩))
    have tail := line.2
    rw [list] at tail ⊢
    have left : InLine p none es := ⟨under_of_waiting tail, fun x hx => tail x (List.mem_of_mem_tail hx)⟩
    have follow : Follows p none noTies noTies es (es.dropWhile isSettled) := follows_dropWhile es
    refine ⟨follow.inLine left, fun i => ?_⟩
    have count := follow.bound i
    rw [bound_cons, ← bind]
    simp only [noTies, List.tail_cons] at *
    omega
  · have shorter := (List.dropWhile_sublist isSettled (l := (s.port p).pending.tail)).length_le
    rw [List.length_tail] at shorter
    exact shorter.trans (by omega)
  · have table := table_unboundFrom (b := b.bound) (table_burstWrites (b := b) h)
    rw [← releaseBound_eq _ _ (table_burstWrites h).engine] at table
    exact table.same (fun _ => rfl) rfl rfl rfl rfl rfl rfl
  · have flights := flights_unboundFrom b.bound (burstWrites b s) i
    rw [← releaseBound_eq _ _ (table_burstWrites h).engine, win_burstWrites] at flights
    exact flights

/-- The SRAM is idle: a soft reset in progress ends, and otherwise the grant decision is taken. -/
theorem afterBurst_cases {s u : State} (soft : u.softReset = s.softReset)
    (h : Keeps none s (Bursts.idled u)) :
    (s.softReset = false ∧ Keeps none s (afterBurst u)) ∨ s.softReset = true ∧ Fresh (afterBurst u) := by
  rw [Bursts.afterBurst_eq, soft]
  cases s.softReset
  · exact .inl ⟨rfl, h.trans (keeps_grantDecision _)⟩
  · exact .inr ⟨rfl, fresh_softResetFinish _⟩

/-- What a completion makes of the invariants. -/
abbrev Completes (s t : State) : Prop := (s.softReset = false ∧ Keeps none s t) ∨ s.softReset = true ∧ Fresh t

theorem portCompletion_completes {p : Port} {b : Burst} {s : State} (under : s.seq.burst = some b)
    (source : b.source = .port p) : Completes s (portCompletion p b s) :=
  afterBurst_cases (softReset_afterBurst_port p b s) (keeps_portSettled under source)

theorem softReset_countGroup (s : State) : (countGroup s).softReset = s.softReset := by
  unfold countGroup
  split
  · rfl
  · split
    · rw [fillComplete_eq]
      split
      · rfl
      · unfold scrubTake
        split <;> rfl
    · rfl

theorem keeps_countGroup {loose : Option Port} (s : State) : Keeps loose s (countGroup s) := by
  refine keeps_of_tables (portsStand_countGroup s) Table.countGroup fun h => ?_
  unfold countGroup
  cases hg : s.scrub.progress with
  | none => exact fun _ => rfl
  | some g =>
    have free : (s.win g.window).inFlight = 0 := (h.windows _).quiet (.inr (scrubbing_of_progress h.scrub hg))
    have done : SameFlights s (fillDone g.window s) := sameFlights_of_turned (turned_fillDone _ s) free.symm
    simp only
    split
    · rw [fillComplete_eq]
      split
      · exact done
      · refine done.trans ?_
        unfold scrubTake
        split
        · exact fun _ => rfl
        · exact sameFlights_of_turned (turned_setWin fun _ => rfl) rfl
    · exact fun _ => rfl

theorem scrubCompletion_completes {b : Burst} {s : State} (under : s.seq.burst = some b)
    (source : b.source = .scrub) : Completes s (scrubCompletion b s) := by
  have writes : Keeps none s (burstWrites b s) :=
    by
      unfold burstWrites
      split
      · exact keeps_of_quiet
      · exact .refl _ s
  refine afterBurst_cases ?_ ?_
  · rw [softReset_countGroup]
    unfold burstWrites
    split <;> rfl
  · have counted := (keeps_countGroup (loose := none) (burstWrites b s)).before writes
    have seq : (countGroup (burstWrites b s)).seq = s.seq :=
      ((portsStand_countGroup _).before (portsStand_burstWrites b s)).seq
    refine counted.trans (keeps_seq id fun p => ?_)
    rw [seq, under]
    exact (granted_scrub source p).symm

end Sys2Proof.Keeping
end

section
/-! PROOFS. Every command taken once, for the invariants and for lease time: it keeps them, or is the lease tick that is
due, or puts the reset values in their place. -/

namespace Sys2Proof.Keeping
open Sys2Proof.Machine Sys2Proof.Safety Sys2Proof.Tables Sys2Proof.Ticks

/-! ## Frames and actions -/

theorem keeps_frameUpdate {kind : FrameEnd} {update : Payload → State → State}
    (h : ∀ x t, Keeps none t (update x t)) (s : State) : Keeps none s (frameUpdate kind update s) :=
  keeps_ite ((h _ _).before keeps_of_quiet) (.refl _ s)

theorem keeps_actionFrame {code : BitVec 5} {act : ActionRecord → State → ActionOut}
    (h : ∀ a t, Keeps none t (act a t).1) (s : State) : Keeps none s (actionFrame code act s) :=
  keeps_frameUpdate (fun x t => (keeps_of_quiet).before (h (actionRecordOf x) t)) s

theorem keeps_onWindow {a : ActionRecord} {act : WinIdx → State → ActionOut} {s : State}
    (h : ∀ i, Keeps none s (act i s).1) : Keeps none s (onWindow a act s).1 := by
  unfold onWindow
  split
  · exact .refl _ s
  · exact h _

theorem keeps_onHead {a : ActionRecord} {act : Request → State → ActionOut} {s : State}
    (h : ∀ r, Keeps none s (act r s).1) : Keeps none s (onHead a act s).1 := by
  unfold onHead
  split
  · exact .refl _ s
  · split
    · exact h _
    · exact .refl _ s

/-- An action that is taken on a condition. -/
theorem keeps_actionIf {c : Prop} [Decidable c] {s t : State} {code : ResultCode} {done window : Option WinIdx}
    (h : c → Keeps none s t) : Keeps none s (if c then actionDone t done else actionFailed s code window).1 := by
  split
  · rename_i hc; exact h hc
  · exact .refl _ s

theorem keeps_answerHead (r : Request) (outcome : ReplyOutcome) (s : State) :
    Keeps none s (answerHead r outcome s) := keeps_of_quiet

theorem keeps_grantHead (a : ActionRecord) (r : Request) (s : State) : Keeps none s (grantHead a r s).1 := by
  unfold grantHead
  split
  · rename_i f _
    have created := keeps_createWindow (loose := none) (grantOperands r.port r.tag f a) s
    unfold grantNew
    split
    · rename_i t i hc
      rw [hc] at created
      exact created.trans (keeps_answerHead r _ t)
    · exact .refl _ s
  · refine keeps_actionIf fun able => ?_
    have can := changeable_of_renewable ((Actions.renewable_iff _).1 (Bool.and_eq_true_iff.1 able).2)
    exact (keeps_answerHead r _ _).before (keeps_renewWindow can _)

theorem keeps_ackFault (slot : BitVec 6) (s : State) : Keeps none s (ackFault slot s).1 := by
  unfold ackFault
  split
  · split
    · exact keeps_of_quiet
    · exact .refl _ s
  · exact .refl _ s

/-- The engine held or resumed (R142, R143). -/
theorem keeps_engineTurned {s : State} {st : EngineState} (busy : s.scrub.state ≠ .idle) (busy' : st ≠ .idle) :
    Keeps none s { s with scrub := { s.scrub with state := st } } :=
  keeps_of_tables ⟨rfl, rfl, rfl, rfl, fun h => ⟨iff_of_false busy' fun e => busy (h.1.2 e), fun e => absurd e busy'⟩⟩
    (fun h => h.engineTurned busy busy') fun _ _ => rfl

theorem keeps_scrubHold (s : State) : Keeps none s (scrubHold s).1 :=
  keeps_actionIf fun runs => by
    have runs : s.scrub.state = .running := by simpa using runs
    exact keeps_engineTurned (by rw [runs]; decide) (by decide)

theorem keeps_scrubResume (s : State) : Keeps none s (scrubResume s).1 :=
  keeps_actionIf fun pauses => by
    have pauses : s.scrub.state = .paused := by simpa using pauses
    exact (keeps_grantDecision _).before (keeps_engineTurned (by rw [pauses]; decide) (by decide))

/-- A STOPPED port becomes ACTIVE (R158). -/
theorem keeps_resumePort (p : Port) (s : State) : Keeps none s (resumePort p s).1 :=
  keeps_actionIf fun stops => by
    have stops : (s.port p).state = .stopped := by simpa using stops
    refine keeps_setPort ⟨.refl _ _ _, fun lines => iff_of_false (by simp) fun on => ?_, fun _ h => h⟩
    rw [lines.2 on] at stops
    cases stops

theorem keeps_selectorBit (b : Bool) (s : State) : Keeps none s (selectorBit b s) :=
  keeps_ite keeps_of_quiet keeps_of_quiet

/-- A CLOCK update leaves lease time and the expiry list (R70). -/
theorem keeps_applyClock (x : Payload) (s : State) : Keeps none s (applyClock x s) := by
  have same : (applyClock x s).clock.time = s.clock.time ∧ (applyClock x s).clock.expiry = s.clock.expiry := by
    simp only [applyClock, LeaseClock.update]
    split <;> exact ⟨rfl, rfl⟩
  exact keeps_of_quiet (expiry := same.2) (time := same.1)

/-- A line released (R16). -/
theorem keeps_lineReleased (p : Port) (s : State) :
    Keeps none s (s.setPort p { s.port p with line := false, state := .active }) :=
  keeps_setPort ⟨.refl _ _ _, fun _ => iff_of_false (by simp) (by simp), fun _ h => h⟩

/-- The end of a drain that stands at a count of 0 (R38). -/
theorem keeps_drainEnd (i : WinIdx) (s : State) :
    Keeps none s (if (s.win i).phase == .draining && (s.win i).inFlight == 0 then grantDecision (endDrain i s) else s) := by
  split
  · rename_i ends
    have ends : (s.win i).phase = .draining ∧ (s.win i).inFlight = 0 := by simpa using ends
    refine (keeps_grantDecision _).before (keeps_of_tables (portsStand_endDrain i s) (fun h => ?_) fun h => ?_)
    · rw [endDrain_eq i s h.engine]
      exact (h.anyIdle (some i)).drained ends.1 ends.2
    · rw [endDrain_eq i s h.engine]
      exact sameFlights_drained ends.2
  · exact .refl _ s

/-! ## Outcomes -/

/-- The rows that are a lease tick where one is due (log 17). -/
def tickRow (c : Instr) : Prop := c = .leaseTick ∨ (∃ order, c = .lclkPeriod order) ∨
  ∃ i, c = .onsetExpiry i ∨ c = .holdExpiry i ∨ c = .taperExpiry i

/-- The rows that put the reset values in place. -/
def resetRow (c : Instr) (s : State) : Prop := c ∈ [Instr.porstAssert, .powerOnReset, .softReset] ∨
  s.softReset = true ∧ c ∈ [Instr.softResetEnd, .portBurstComplete, .scrubBurstComplete, .fillComplete]

/-- What a command makes of the invariants and of lease time. -/
inductive Outcome (c : Instr) (s t : State) : Prop
  | kept (h : Keeps none s t)
  | ticked (row : tickRow c) (run : running s) (due : tickNow s) (h : Kept none s t)
      (time : t.clock.time = s.clock.time + 1)
  | reset (row : resetRow c s) (h : Fresh t)

theorem running_of_clockActs {s : State} (h : clockActs s = true) : running s := by
  unfold clockActs at h
  simpa using h

theorem tickNow_of_tickDue {s : State} (h : tickDue s = true) : tickNow s := by
  unfold tickDue at h
  simpa using h

theorem outcome_ite {b : Prop} [Decidable b] {c : Instr} {s t : State} (h : b → Outcome c s t) :
    Outcome c s (if b then t else s) := by
  split
  · rename_i hb; exact h hb
  · exact .kept (.refl _ s)

/-- The tick that is due, with the grant decision after it. -/
theorem outcome_tick {c : Instr} {s : State} (row : tickRow c) (acts : clockActs s = true) (due : tickDue s = true) :
    Outcome c s (grantDecision (leaseTick s)) :=
  have granted := keeps_grantDecision (leaseTick s)
  .ticked row (running_of_clockActs acts) (tickNow_of_tickDue due) ((kept_leaseTick s).trans granted.toKept)
    (by rw [granted.time, time_leaseTick])

theorem outcome_expiryEvent {c : Instr} (row : tickRow c) (ph : Phase) (i : WinIdx) (s : State) :
    Outcome c s (expiryEvent ph i s) := by
  rcases expiryEvent_cases ph i s with kept | ⟨acts, due, eq⟩
  · exact .kept kept
  · rw [eq]
    exact outcome_tick row acts due

theorem outcome_lclkPeriod (order : List LclkPart) {s : State} (acts : clockActs s = true) :
    Outcome (.lclkPeriod order) s (lclkPeriod order s) := by
  cases due : tickDue s
  · exact .kept (lclkPeriod_of_notDue order due)
  · rcases lclkPeriod_of_due order s with kept | ⟨kept, time⟩
    · exact .kept kept
    · exact .ticked (.inr (.inl ⟨order, rfl⟩)) (running_of_clockActs acts) (tickNow_of_tickDue due) kept time

theorem outcome_of_completes {c : Instr} {s t : State} (h : Completes s t)
    (row : c ∈ [Instr.softResetEnd, .portBurstComplete, .scrubBurstComplete, .fillComplete]) : Outcome c s t := by
  rcases h with ⟨-, kept⟩ | ⟨soft, fresh⟩
  · exact .kept kept
  · exact .reset (.inr ⟨soft, row⟩) fresh

/-- Every command keeps the invariants and lease time, or is the tick that is due, or a reset. -/
theorem exec_outcome (c : Instr) (s : State) : ∃ t, exec c s = .next t ∧ Outcome c s t := by
  cases c with
  | acceptDataAccess p acc =>
    refine ⟨_, rfl, outcome_ite fun taken => .kept ?_⟩
    exact (keeps_acceptData (Bursts.places_of_canAccept (Bool.and_eq_true_iff.1 taken).1)).trans (keeps_grantDecision _)
  | acceptControlAccess p acc =>
    refine ⟨_, rfl, outcome_ite fun taken => .kept ?_⟩
    exact keeps_acceptControl (Bursts.places_of_canAccept (Bool.and_eq_true_iff.1 taken).1)
  | replyRead p =>
    exact ⟨_, rfl, outcome_ite fun taken => .kept (keeps_serveControl (Bursts.places_of_canAccept taken))⟩
  | writeDataBeat p w =>
    exact ⟨_, rfl, outcome_ite fun _ => .kept ((keeps_dataBeat p w s).trans (keeps_grantDecision _))⟩
  | newRequest p w => exact ⟨_, rfl, .kept (keeps_controlWrite 0 p w s)⟩
  | portRenew p w => exact ⟨_, rfl, .kept (keeps_controlWrite 2 p w s)⟩
  | withdraw p w => exact ⟨_, rfl, .kept (keeps_controlWrite 3 p w s)⟩
  | release p w => exact ⟨_, rfl, .kept (keeps_controlWrite 4 p w s)⟩
  | scopePush p w => exact ⟨_, rfl, .kept (keeps_controlWrite 5 p w s)⟩
  | scopePop p w => exact ⟨_, rfl, .kept (keeps_controlWrite 6 p w s)⟩
  | portClearFlags p w => exact ⟨_, rfl, .kept (keeps_controlWrite 7 p w s)⟩
  | dataDeadline p place =>
    exact ⟨_, rfl, outcome_ite fun _ => .kept ((keeps_deadlineIf _ p place s).trans (keeps_grantDecision _))⟩
  | lclkPeriod order => exact ⟨_, rfl, outcome_ite fun acts => outcome_lclkPeriod order acts⟩
  | leaseTick =>
    refine ⟨_, rfl, outcome_ite fun taken => ?_⟩
    obtain ⟨acts, due⟩ := Bool.and_eq_true_iff.1 taken
    exact outcome_tick (.inl rfl) acts due
  | onsetExpiry i => exact ⟨_, rfl, outcome_expiryEvent (.inr (.inr ⟨i, .inl rfl⟩)) _ i s⟩
  | holdExpiry i => exact ⟨_, rfl, outcome_expiryEvent (.inr (.inr ⟨i, .inr (.inl rfl)⟩)) _ i s⟩
  | taperExpiry i => exact ⟨_, rfl, outcome_expiryEvent (.inr (.inr ⟨i, .inr (.inr rfl)⟩)) _ i s⟩
  | burstGrant => exact ⟨_, rfl, .kept (keeps_grantDecision s)⟩
  | portBurstComplete =>
    refine ⟨_, rfl, ?_⟩
    split
    · exact .kept (.refl _ s)
    · rename_i b under
      split
      · rename_i p source
        exact outcome_of_completes (portCompletion_completes under source) (by simp)
      · exact .kept (.refl _ s)
  | scrubBurstComplete =>
    refine ⟨_, rfl, ?_⟩
    split
    · exact .kept (.refl _ s)
    · rename_i b under
      split
      · rename_i source
        exact outcome_of_completes (scrubCompletion_completes under source) (by simp)
      · exact .kept (.refl _ s)
  | drainEnd i => exact ⟨_, rfl, .kept (keeps_drainEnd i s)⟩
  | fillComplete =>
    refine ⟨_, rfl, ?_⟩
    split
    · exact .kept (.refl _ s)
    · rename_i b under
      refine outcome_ite fun last => ?_
      have source : b.source = .scrub := by
        unfold lastGroupUnderWay at last
        rw [under] at last
        split at last
        · rename_i e _
          cases e
          simpa using (Bool.and_eq_true_iff.1 last).1
        · cases last
      exact outcome_of_completes (scrubCompletion_completes under source) (by simp)
  | portResetAssert p order =>
    refine ⟨_, rfl, .kept (keeps_ite (.refl _ s) (keeps_portResetAssert p order s))⟩
  | portResetRelease p => exact ⟨_, rfl, outcome_ite fun _ => .kept (keeps_lineReleased p s)⟩
  | porstAssert =>
    refine ⟨_, rfl, ?_⟩
    split
    · exact .kept (.refl _ s)
    · exact .reset (.inl (by simp)) (fresh_of_resetBlocks (s := s))
  | powerOnReset =>
    exact ⟨_, rfl, outcome_ite fun _ => .reset (.inl (by simp)) (fresh_of_resetBlocks (s := s))⟩
  | softResetEnd =>
    refine ⟨_, rfl, outcome_ite fun soft => ?_⟩
    split
    · rename_i idle
      refine .reset (.inr ⟨soft, by simp⟩) ?_
      rw [Bursts.afterBurst_eq, soft]
      exact fresh_softResetFinish _
    · rename_i b under
      split
      · rename_i p source
        exact outcome_of_completes (portCompletion_completes under source) (by simp)
      · rename_i source
        exact outcome_of_completes (scrubCompletion_completes under source) (by simp)
  | malformedFrame =>
    refine ⟨_, rfl, .kept ?_⟩
    split
    case h_1 | h_2 => exact keeps_of_quiet
    all_goals exact .refl _ s
  | readOnlyFrame | nullAction => exact ⟨_, rfl, .kept (keeps_frameUpdate (fun _ t => .refl _ t) s)⟩
  | attnEnable | attnAck | scrubUpdate | fixedMap =>
    exact ⟨_, rfl, .kept (keeps_frameUpdate (fun _ _ => keeps_of_quiet) s)⟩
  | clock => exact ⟨_, rfl, .kept (keeps_frameUpdate keeps_applyClock s)⟩
  | portArmUpdate =>
    refine ⟨_, rfl, .kept ?_⟩
    split
    · exact keeps_frameUpdate (fun _ _ => keeps_setPort_flags) s
    all_goals exact .refl _ s
  | badAction =>
    refine ⟨_, rfl, .kept ?_⟩
    split
    · exact keeps_ite keeps_of_quiet (.refl _ s)
    all_goals exact .refl _ s
  | create => exact ⟨_, rfl, .kept (keeps_actionFrame (fun _ t => keeps_createWindow _ t) s)⟩
  | grantHead =>
    exact ⟨_, rfl, .kept (keeps_actionFrame (fun a t => keeps_onHead fun r => keeps_grantHead a r t) s)⟩
  | refuseHead =>
    exact ⟨_, rfl, .kept (keeps_actionFrame (fun _ t => keeps_onHead fun r => keeps_answerHead r _ t) s)⟩
  | amend =>
    exact ⟨_, rfl, .kept (keeps_actionFrame (fun a t => keeps_onWindow fun i => keeps_amendWindow a i t) s)⟩
  | renew =>
    refine ⟨_, rfl, .kept (keeps_actionFrame (fun a t => keeps_onWindow fun i => keeps_actionIf fun able => ?_) s)⟩
    exact keeps_renewWindow (changeable_of_renewable ((Actions.renewable_iff _).1 able)) _
  | activate =>
    refine ⟨_, rfl, .kept (keeps_actionFrame (fun a t => keeps_onWindow fun i => keeps_actionIf fun able => ?_) s)⟩
    exact keeps_enterHeld (.inl (by simpa using (Bool.and_eq_true_iff.1 able).1))
  | revoke =>
    refine ⟨_, rfl, .kept (keeps_actionFrame (fun a t => keeps_onWindow fun i => keeps_actionIf fun able => ?_) s)⟩
    exact (keeps_enterDraining ((Actions.amendable_iff _).1 able)).trans (keeps_grantDecision _)
  | unwind => exact ⟨_, rfl, .kept (keeps_actionFrame (fun a t => keeps_emptyStack a.port t) s)⟩
  | resumePort => exact ⟨_, rfl, .kept (keeps_actionFrame (fun a t => keeps_resumePort a.port t) s)⟩
  | clearFlags => exact ⟨_, rfl, .kept (keeps_actionFrame (fun _ _ => keeps_setPort_flags) s)⟩
  | ackFault => exact ⟨_, rfl, .kept (keeps_actionFrame (fun a t => keeps_ackFault a.index t) s)⟩
  | clearOverflow =>
    exact ⟨_, rfl, .kept (keeps_actionFrame (fun _ _ => keeps_of_quiet (overflow := fun _ => Nat.zero_le _)) s)⟩
  | scrubHold => exact ⟨_, rfl, .kept (keeps_actionFrame (fun _ t => keeps_scrubHold t) s)⟩
  | scrubResume => exact ⟨_, rfl, .kept (keeps_actionFrame (fun _ t => keeps_scrubResume t) s)⟩
  | softReset =>
    refine ⟨_, rfl, outcome_ite fun _ => ?_⟩
    have closed : Keeps none s (setResult .done none (closeFrame false s).clock.time (closeFrame false s)) :=
      keeps_of_quiet
    rcases softResetBegin_cases (setResult .done none (closeFrame false s).clock.time (closeFrame false s)) with
      kept | fresh
    · exact .kept (closed.trans kept)
    · exact .reset (.inl (by simp)) fresh
  | frameOpen => exact ⟨_, rfl, .kept (keeps_ite (.refl _ s) (keeps_ite keeps_of_quiet keeps_of_quiet))⟩
  | managementClockPeriod dataIn =>
    refine ⟨_, rfl, .kept (keeps_ite (.refl _ s) ?_)⟩
    split
    · exact .refl _ s
    · exact keeps_selectorBit dataIn s
    · exact keeps_of_quiet

/-- Every step keeps the invariants. -/
theorem step_kept {s t : State} (h : step s = .next t) : Kept none s t ∨ Fresh t := by
  unfold step at h
  split at h
  · cases h; exact .inl (.refl _ s)
  · rename_i c rest _
    obtain ⟨u, hu, outcome⟩ := exec_outcome c { s with pending := rest }
    rw [hu] at h
    cases h
    have popped : Keeps none s { s with pending := rest } := keeps_of_quiet
    cases outcome with
    | kept h => exact .inl (popped.trans h).toKept
    | ticked _ _ _ h _ => exact .inl (popped.toKept.trans h)
    | reset _ h => exact .inr h

end Sys2Proof.Keeping
end

section
/-! PROOFS. The invariants that every step keeps, and what changes lease time (spec/01 to spec/08). -/

namespace Sys2Proof.Keeping
open Sys2Proof.Machine Sys2Proof.Safety Sys2Proof.Tables Sys2Proof.Ticks Sys2Proof.Requests

/-! ## Stacks and queue in their places (R94, R108) -/

/-- Every stack holds at most 8 frames and the queue at most 16 requests. -/
structure Rooms (s : State) : Prop where
  depth : ∀ p, (s.scopes.get p).length ≤ 8
  queue : s.requests.length ≤ 16

theorem rooms_of_book {s t : State} (h : book t = book s) (hs : Rooms s) : Rooms t :=
  ⟨fun p => by rw [depth_of_book h]; exact hs.depth p, by rw [requests_of_book h]; exact hs.queue⟩

theorem rooms_reset : Rooms State.reset :=
  ⟨fun p => by rw [PowerOn.reset_scopes]; exact Nat.zero_le _, Nat.zero_le _⟩

theorem rooms_ite {c : Prop} [Decidable c] {s t : State} (h : Rooms s) (k : Rooms t) : Rooms (if c then s else t) := by
  split
  · exact h
  · exact k

/-- A stack replaced by one that has a place for each of its frames. -/
theorem depth_set {s : State} {p : Port} {l : List Frame} (h : Rooms s) (hl : l.length ≤ 8) (q : Port) :
    ((s.scopes.set p l).get q).length ≤ 8 := by
  rw [perPort_get_set]
  split
  · exact hl
  · exact h.depth q

/-- A request joins the queue only where it has a place (R92). -/
theorem rooms_requestArrival {s : State} (r : Request) (h : Rooms s) : Rooms (requestArrival r s) := by
  unfold requestArrival
  simp only
  split
  · exact ⟨h.depth, h.queue⟩
  · split
    · exact ⟨h.depth, h.queue⟩
    · rename_i place
      have place : s.requests.length < 16 := Nat.lt_of_not_le place
      refine ⟨h.depth, ?_⟩
      have joined : (s.requests ++ [r]).length = s.requests.length + 1 := List.length_append
      exact joined.trans_le place

theorem rooms_change {s t : State} (c : Change s t) (h : Rooms s) : Rooms t := by
  cases c with
  | quiet e => exact rooms_of_book e h
  | reset e => exact rooms_of_book e rooms_reset
  | arrival r _ => exact rooms_requestArrival r h
  | withdrawal p tag _ => exact ⟨h.depth, (List.eraseP_sublist).length_le.trans h.queue⟩
  | replyRead p =>
    unfold serveReply
    split
    · exact h
    · exact ⟨h.depth, h.queue⟩
  | headAnswered r rest outcome _ =>
    exact ⟨h.depth, (List.tail_sublist _).length_le.trans h.queue⟩
  | portDropped p => exact ⟨h.depth, (List.length_filter_le _ _).trans h.queue⟩
  | framePushed p i c place => exact ⟨depth_set h place, h.queue⟩
  | framesGone p l shorter => exact ⟨depth_set h (shorter.trans (h.depth p)), h.queue⟩
  | recorded p reason kind a w => exact rooms_ite ⟨h.depth, h.queue⟩ ⟨h.depth, h.queue⟩
  | slotFreed n => exact ⟨h.depth, h.queue⟩

/-! ## The invariants after a step -/

/-- Settles O53, by the outcome of the step and by the changes of the books. -/
theorem everyStepKeepsTheLists : Obligations.EveryStepKeepsTheLists := by
  rintro s t ⟨within, lines, oldest, engine⟩ step
  have rooms : Rooms t := (step_changes step).keeps rooms_change ⟨fun p => (within.1 p).2, within.2.1⟩
  have all (places : Places t) (front : ∀ p, FrontOk (t.port p).pending) :
      withinPlaces t ∧ linesMatch t ∧ oldestUnsettled t ∧ engineMatches t :=
    ⟨⟨fun p => ⟨places.pending p, rooms.depth p⟩, rooms.queue, places.share, places.overflow⟩, places.lines, front,
      places.engine⟩
  rcases step_kept step with kept | fresh
  · exact all (kept.places (places_of within lines engine)) fun p => kept.front p (by simp) (oldest p)
  · exact all fresh.places fresh.front

/-- Every step from a state with the invariants leaves tables, bindings and burst in line. -/
theorem step_sound {s t : State} (h : Invariants s) (step : step s = .next t) : Sound t := by
  rcases step_kept step with kept | fresh
  · exact kept.sound (sound_of_invariants h)
  · exact fresh.sound

/-- Settles O54, from the tables that every step keeps. -/
theorem everyStepKeepsTheWindowsApart : Obligations.EveryStepKeepsTheWindowsApart := fun _ _ h step =>
  have sound := step_sound h step
  ⟨sound.table.windowsFormed, sound.table.grants, sound.table.scrubs⟩

/-- Settles O55, from the counts and the burst that every step keeps in line. -/
theorem everyStepKeepsTheBindings : Obligations.EveryStepKeepsTheBindings := fun _ _ h step =>
  have sound := step_sound h step
  ⟨sound.bindingsCounted, sound.burstMatches⟩

/-- Settles O56, from the tables that every step keeps. -/
theorem everyStepKeepsScopesAndScrubs : Obligations.EveryStepKeepsScopesAndScrubs := fun _ _ h step =>
  have sound := step_sound h step
  ⟨sound.table.scopes, sound.table.scrub⟩

/-- Settles O57, from the tables that every step keeps. -/
theorem everyStepKeepsTheExpiryList : Obligations.EveryStepKeepsTheExpiryList := fun _ _ h step =>
  (step_sound h step).table.expiryMatches

/-! ## Deadlines, durations and lease time -/

/-- The durations of the table (R73). -/
theorem duration_of_code {c : Code} {n : Nat} (scale : BitVec 2)
    (h : [0, 1, 2, 3, 5, 8, 12, 20, 30, 50, 80, 120, 200, 300, 500][c.toNat]? = some n) :
    duration c scale = n * 16 ^ scale.toNat := by
  have ticks : codeTicks c = n := by
    rw [codeTicks, List.getD_eq_getElem?_getD, h]
    rfl
  rw [duration, ticks, scaleFactor_eq]

/-- A phase of a finite duration has a deadline, another has none (R76). -/
theorem deadline_enterPhase (i : WinIdx) (ph : Phase) (c : Code) (s : State) :
    ((enterPhase i ph c s).win i).deadline = if 1 ≤ c.toNat ∧ c.toNat ≤ 14 then
      some (s.clock.time + BitVec.ofNat 32 (duration c (s.win i).scale)) else none := by
  rw [enterPhase_eq, (turned_inPhase i ph c s).self]
  rfl

/-- Settles O30, by the arithmetic of lease time and by the outcome of every command. -/
theorem deadlinesAndDurations : Obligations.DeadlinesAndDurations := by
  refine ⟨fun t d => ⟨deadlineReached_iff t d, remaining_eq t d, deadlineReached_of_ahead, remaining_tick,
      deadlineReached_of_remaining_zero⟩, fun t n least most => ?_,
    fun c scale n h => ⟨duration_of_code scale h, duration_le c scale⟩, deadline_enterPhase, fun c s t h => ?_⟩
  · have ahead := remaining_add t (n := n) (by omega)
    exact ⟨ahead, deadlineReached_of_ahead (by omega) (by omega)⟩
  · obtain ⟨u, hu, outcome⟩ := exec_outcome c s
    rw [hu] at h
    cases h
    cases outcome with
    | kept k => exact .inl k.time
    | ticked row run due _ time => exact .inr (.inl ⟨row, run, due, time⟩)
    | reset row fresh => exact .inr (.inr ⟨row, fresh.time⟩)

end Sys2Proof.Keeping
end

section
/-! PROOFS. The parts of an LCLK period (spec/01 R6; spec/04 R69, R78): what each leaves of the pending lists and of the
clock, and the period as the record updates `periodCounted` and `inOrder`. -/

namespace Sys2Proof.Periods
open Sys2Proof.Machine Sys2Proof.Safety Sys2Proof.Tables Sys2Proof.Ticks Sys2Proof.Keeping

/-! ## Lists in their places -/

/-- The invariants of which the parts of a period make use. -/
structure InPlace (s : State) : Prop where
  sound : Sound s
  places : Places s
  front : ∀ p, FrontOk (s.port p).pending

theorem InPlace.kept {s t : State} (h : InPlace s) (k : Kept none s t) : InPlace t :=
  ⟨k.sound h.sound, k.places h.places, fun p => k.front p (by simp) (h.front p)⟩

theorem inPlace_of_invariants {s : State} (h : Invariants s) : InPlace s :=
  ⟨sound_of_invariants h, places_of h.places h.lines h.engine, h.oldest⟩

theorem InPlace.runPart {x : State × Bool} (h : InPlace x.1) (part : LclkPart) : InPlace (runPart x part).1 := by
  cases part with
  | tick =>
    cases due : x.2
    · simp only [Machine.runPart, due]; exact h
    · simp only [Machine.runPart, due]; exact h.kept (kept_leaseTick x.1)
  | deadline p place => exact h.kept (keeps_deadlineIf _ p place x.1).toKept
  | grant => exact h.kept (keeps_grantDecision x.1).toKept

theorem InPlace.runParts {x : State × Bool} (h : InPlace x.1) (parts : List LclkPart) :
    InPlace (parts.foldl Machine.runPart x).1 := by
  induction parts generalizing x with
  | nil => exact h
  | cons part parts ih => exact ih (h.runPart part)

/-- The counts of a period as record updates (R6, R69). -/
theorem countPeriod_eq (s : State) : countPeriod s = periodCounted s := by
  have now : tickDue s = true ↔ tickNow s := by simp [tickDue]
  have tick : (s.clock.run && !tickDue s) = true ↔ s.clock.run = true ∧ ¬ tickNow s := by
    rw [Bool.and_eq_true, Bool.not_eq_true', ← Bool.not_eq_true, now]
  have lowered (e : Entry) : e.countDown =
      if e.progress = .waitingData then { e with deadlineCount := e.deadlineCount.map (· - 1) } else e := by
    simp [Entry.countDown]
  have port (u : Piu) : u.countDown = { u with pending := u.pending.map fun e =>
      if e.progress = .waitingData then { e with deadlineCount := e.deadlineCount.map (· - 1) } else e } := by
    simp only [Piu.countDown, ← lowered]
  simp only [countPeriod, periodCounted, deadlinesLowered, port, tick]

theorem everyPart_eq : wholePeriod = everyPart := rfl

/-- A deadline part of a period with the lists in their places (R6). -/
theorem InPlace.deadlineIf_eq {s : State} (h : InPlace s) (p : Port) (place : Nat) :
    deadlineIf (· == 0) p place s = deadlineTaken p place s := by
  by_cases first : place ≤ 1
  · refine Machine.deadlineIf_eq h.places.engine fun e he => ?_
    cases list : (s.port p).pending with
    | nil => rw [list] at he; simp at he
    | cons x xs =>
      rw [list] at he
      have member : e ∈ (x :: xs).take 1 := (List.take_subset_take_left _ first) he
      rw [List.take_succ_cons, List.take_zero, List.mem_singleton] at member
      rw [member]
      exact h.front p x xs list
  · have room := h.places.pending p
    have beyond : (s.port p).pending.length ≤ place := by omega
    rw [deadlineIf, deadlineEntry, List.getElem?_eq_none beyond, deadlineTaken, List.drop_eq_nil_of_le beyond]

/-- The parts of a period, one after the other, are those of `inOrder`. -/
theorem InPlace.runParts_eq {s : State} (h : InPlace s) (parts : List LclkPart) (due : Bool) :
    (parts.foldl Machine.runPart (s, due)).1 = inOrder parts due s := by
  induction parts generalizing s due with
  | nil => rfl
  | cons part parts ih =>
    have next := h.runPart (x := (s, due)) part
    cases part with
    | tick =>
      cases due
      · exact ih h false
      · have step : Machine.runPart (s, true) .tick = (ticked s, false) := by
          rw [← leaseTick_eq_ticked h.sound.table]
          rfl
        rw [List.foldl_cons, step]
        rw [step] at next
        exact ih next false
    | deadline p place =>
      have step : Machine.runPart (s, due) (.deadline p place) = (deadlineTaken p place s, due) := by
        rw [← h.deadlineIf_eq]
        rfl
      rw [List.foldl_cons, step]
      rw [step] at next
      exact ih next due
    | grant => exact ih next due

/-! ## The clock -/

/-- The clock but for the expiry list stands. -/
def ClockStands (s t : State) : Prop := t.clock = { s.clock with expiry := t.clock.expiry }

theorem ClockStands.trans {s t u : State} (h : ClockStands s t) (k : ClockStands t u) : ClockStands s u := by
  unfold ClockStands at *
  rw [k, h]

theorem clock_faultEvent (p : Port) (reason : Reason) (kind : FaultKind) (a : PortAddr) (w : Option WinIdx)
    (s : State) : (faultEvent p reason kind a w s).clock = s.clock := by
  rw [Faults.aFaultEventRecordsFlagsAndStops p reason kind a w s]
  rfl

theorem clockStands_deadlineIf (test : Nat → Bool) (p : Port) (place : Nat) (s : State) :
    ClockStands s (deadlineIf test p place s) := by
  unfold deadlineIf
  split
  · rename_i e _
    have settled : ClockStands s (deadlineSettled p place e s) := by
      unfold deadlineSettled deadlineOutcome ClockStands
      simp only
      split
      · rw [clock_faultEvent]
        exact (portsStand_releaseBound _ _).clock
      · rw [clock_faultEvent]; rfl
      · rw [clock_faultEvent]; rfl
      all_goals rfl
    exact settled.trans rfl
  · rfl

theorem clock_grantDecision (s : State) : (grantDecision s).clock = s.clock := by
  unfold grantDecision
  split
  · split
    · unfold startScrubBurst
      split <;> rfl
    · split
      · unfold startPortBurst
        split <;> rfl
      · rfl
  · rfl

theorem clockStands_grantDecision (s : State) : ClockStands s (grantDecision s) := by
  unfold ClockStands
  rw [clock_grantDecision]

/-- The clock after parts in which no tick is due. -/
theorem clockStands_runParts (parts : List LclkPart) (s : State) :
    ClockStands s (parts.foldl Machine.runPart (s, false)).1 := by
  induction parts generalizing s with
  | nil => rfl
  | cons part parts ih =>
    cases part with
    | tick => exact ih s
    | deadline p place => exact (clockStands_deadlineIf _ p place s).trans (ih _)
    | grant => exact (clockStands_grantDecision s).trans (ih _)

/-- A tick was taken: lease time advanced, and a new tick period began. -/
def ClockTicked (s t : State) : Prop := t.clock = { s.clock with
  expiry := t.clock.expiry, time := s.clock.time + 1, periodDivisor := s.clock.divisor, prescaler := 0 }

theorem clockTicked_leaseTick (s : State) : ClockTicked s (leaseTick s) :=
  (portsStand_expireReached _ _).clock

theorem ClockTicked.after {s t u : State} (h : ClockStands s t) (k : ClockTicked t u) : ClockTicked s u := by
  unfold ClockStands ClockTicked at *
  rw [k, h]

theorem ClockTicked.then {s t u : State} (h : ClockTicked s t) (k : ClockStands t u) : ClockTicked s u := by
  unfold ClockStands ClockTicked at *
  rw [k, h]

/-- The clock after parts in which the tick that is due has its place. -/
theorem clockTicked_runParts {parts : List LclkPart} (tick : .tick ∈ parts) (s : State) :
    ClockTicked s (parts.foldl Machine.runPart (s, true)).1 := by
  induction parts generalizing s with
  | nil => cases tick
  | cons part parts ih =>
    cases part with
    | tick => exact (clockTicked_leaseTick s).then (clockStands_runParts parts _)
    | deadline p place =>
      exact ClockTicked.after (clockStands_deadlineIf _ p place s) (ih (by simpa using tick) _)
    | grant => exact ClockTicked.after (clockStands_grantDecision s) (ih (by simpa using tick) _)

/-! ## The entries that wait for data -/

/-- Every entry that waits for data after a part of a period waited before it, as it was. -/
def WaitsFrom (s t : State) : Prop :=
  ∀ p, ∀ e ∈ (t.port p).pending, e.progress = .waitingData → e ∈ (s.port p).pending

theorem WaitsFrom.refl (s : State) : WaitsFrom s s := fun _ _ he _ => he

theorem WaitsFrom.trans {s t u : State} (h : WaitsFrom s t) (k : WaitsFrom t u) : WaitsFrom s u :=
  fun p e he waits => h p e (k p e he waits) waits

theorem waitsFrom_of_pending {s t : State} (h : ∀ p, (t.port p).pending = (s.port p).pending) : WaitsFrom s t :=
  fun p _ he _ => by rw [← h p]; exact he

theorem waitsFrom_leaseTick (s : State) : WaitsFrom s (leaseTick s) :=
  waitsFrom_of_pending fun p => by rw [leaseTick, (portsStand_expireReached _ _).port]; rfl

theorem waitsFrom_grantDecision (s : State) : WaitsFrom s (grantDecision s) := by
  have scrub : WaitsFrom s (startScrubBurst s) := waitsFrom_of_pending fun p => by
    unfold startScrubBurst
    split <;> rfl
  have port (p : Port) : WaitsFrom s (startPortBurst p s) := by
    unfold startPortBurst
    split
    · exact .refl s
    · rename_i e es list
      intro q x hx waits
      by_cases hq : q = p
      · subst hq
        rw [State.port_setPort_self] at hx
        rcases List.mem_cons.1 hx with rfl | hx
        · cases waits
        · rw [list]; exact List.mem_cons_of_mem _ hx
      · rw [State.port_setPort_ne _ _ hq] at hx
        exact hx
  unfold grantDecision
  split
  · split
    · exact scrub
    · split
      · exact port _
      · exact .refl s
  · exact .refl s

/-- A data deadline settles its entry in its place, and then the settled ones at the front leave; an entry that a read
was served by stands. -/
theorem pending_deadlineSettled (p : Port) (place : Nat) (e : Entry) (s : State) :
    (∀ r, r ≠ p → ((deadlineSettled p place e s).port r).pending = (s.port r).pending) ∧
    ((∃ w, e.decision = .served w) ∧ ((deadlineSettled p place e s).port p).pending = (s.port p).pending ∨
      ∃ x : Entry, x.progress = .settled ∧
        ((deadlineSettled p place e s).port p).pending = (s.port p).pending.set place x) := by
  have others (r : Port) (hr : r ≠ p) (u : State) (x : Piu) : (u.setPort p x).port r = u.port r :=
    State.port_setPort_ne u x hr
  have faulted (r : Port) (reason : Reason) (kind : FaultKind) (a : PortAddr) (w : Option WinIdx) (t : State) :
      ((faultEvent p reason kind a w t).port r).pending = (t.port r).pending :=
    Bursts.pending_of_stage (Bursts.stage_faultEvent p reason kind a w t) r
  unfold deadlineSettled deadlineOutcome
  simp only
  have timeout : ∃ x : Entry, x.progress = .settled ∧ x = e.settle (refusedResponse e.access .dataTimeout) :=
    ⟨_, rfl, rfl⟩
  obtain ⟨x, settled, hx⟩ := timeout
  rw [← hx]
  split
  · refine ⟨fun r hr => ?_, .inr ⟨x, settled, ?_⟩⟩
    · rw [faulted, releaseBound_port, setEntry, others r hr, others r hr]
    · rw [faulted, releaseBound_port, setEntry, State.port_setPort_self, State.port_setPort_self]
  · refine ⟨fun r hr => ?_, .inr ⟨x, settled, ?_⟩⟩
    · rw [faulted, setEntry, others r hr, others r hr]
    · rw [faulted, setEntry, State.port_setPort_self, State.port_setPort_self]
  · refine ⟨fun r hr => ?_, .inr ⟨x, settled, ?_⟩⟩
    · rw [faulted, setEntry, others r hr, others r hr]
    · rw [faulted, setEntry, State.port_setPort_self, State.port_setPort_self]
  · rename_i reason _
    refine ⟨fun r hr => ?_, .inr ⟨e.settle (refusedResponse e.access reason), rfl, ?_⟩⟩
    · rw [setEntry, others r hr, others r hr]
    · rw [setEntry, State.port_setPort_self, State.port_setPort_self]
  · rename_i w dec
    refine ⟨fun r hr => by rw [others r hr], .inl ⟨⟨w, dec⟩, by rw [State.port_setPort_self]⟩⟩

theorem pending_depart_self (p : Port) (s : State) :
    ((depart p s).port p).pending = (s.port p).pending.dropWhile isSettled := by
  rw [depart_eq, followed, State.port_setPort_self]

theorem pending_depart_ne {p r : Port} (hr : r ≠ p) (s : State) : (depart p s).port r = s.port r := by
  rw [depart_eq, followed, State.port_setPort_ne _ _ hr]

theorem waitsFrom_deadlineIf (test : Nat → Bool) (p : Port) (place : Nat) (s : State) :
    WaitsFrom s (deadlineIf test p place s) := by
  unfold deadlineIf
  split
  · rename_i e _
    obtain ⟨others, self⟩ := pending_deadlineSettled p place e s
    intro r y hy waits
    by_cases hr : r = p
    · subst hr
      rw [dataDeadline, pending_depart_self] at hy
      have hy := (List.dropWhile_sublist _).subset hy
      rcases self with ⟨-, same⟩ | ⟨x, settled, same⟩
      · rwa [same] at hy
      · rw [same] at hy
        rcases List.mem_or_eq_of_mem_set hy with hy | rfl
        · exact hy
        · rw [settled] at waits; cases waits
    · rw [dataDeadline, pending_depart_ne hr, others r hr] at hy
      exact hy
  · exact .refl s

theorem waitsFrom_runPart (x : State × Bool) (part : LclkPart) : WaitsFrom x.1 (Machine.runPart x part).1 := by
  cases part with
  | tick =>
    cases due : x.2
    · simp only [Machine.runPart, due]; exact .refl _
    · simp only [Machine.runPart, due]; exact waitsFrom_leaseTick _
  | deadline p place => exact waitsFrom_deadlineIf _ p place x.1
  | grant => exact waitsFrom_grantDecision x.1

theorem waitsFrom_runParts (parts : List LclkPart) (x : State × Bool) :
    WaitsFrom x.1 (parts.foldl Machine.runPart x).1 := by
  induction parts generalizing x with
  | nil => exact .refl _
  | cons part parts ih => exact (waitsFrom_runPart x part).trans (ih _)

/-! ## No data deadline stays due -/

/-- The entry's data deadline is due. -/
def Due (e : Entry) : Prop := e.progress = .waitingData ∧ e.deadlineCount = some 0

/-- No entry of port `p` is due. -/
def Cleared (p : Port) (s : State) : Prop := ∀ e ∈ (s.port p).pending, ¬ Due e

theorem Cleared.waitsFrom {p : Port} {s t : State} (h : Cleared p s) (k : WaitsFrom s t) : Cleared p t :=
  fun e he due => h e (k p e he due.1) due

/-- An entry that waits for data is a write's. -/
def Writes (s : State) : Prop := ∀ p, ∀ e ∈ (s.port p).pending, e.progress = .waitingData → ∀ w, e.decision ≠ .served w

theorem Writes.waitsFrom {s t : State} (h : Writes s) (k : WaitsFrom s t) : Writes t :=
  fun p e he waits => h p e (k p e he waits) waits

/-- A due entry at a place of a list is settled, and the settled ones at the front leave; another list stands. -/
def Taken (place : Nat) (l m : List Entry) : Prop :=
  (∃ e x, l[place]? = some e ∧ Due e ∧ x.progress = .settled ∧ m = (l.set place x).dropWhile isSettled) ∨
    (∀ e, l[place]? = some e → ¬ Due e) ∧ m = l

theorem deadlineEntry_zero {p : Port} {place : Nat} {s : State} {e : Entry} :
    deadlineEntry (· == 0) p place s = some e ↔ (s.port p).pending[place]? = some e ∧ Due e := by
  unfold deadlineEntry
  cases get : (s.port p).pending[place]? with
  | none => simp
  | some x =>
    have met : (x.progress == .waitingData && x.deadlineCount.any (· == 0)) = true ↔ Due x := by
      cases count : x.deadlineCount <;> simp [Due, count]
    simp only
    by_cases due : Due x
    · rw [if_pos (met.2 due)]
      constructor
      · rintro ⟨⟩; exact ⟨rfl, due⟩
      · exact And.left
    · rw [if_neg fun k => due (met.1 k)]
      refine iff_of_false (by simp) ?_
      rintro ⟨⟨⟩, k⟩
      exact due k

theorem deadlineIf_of_notDue {p : Port} {place : Nat} {s : State}
    (h : ∀ e, (s.port p).pending[place]? = some e → ¬ Due e) : deadlineIf (· == 0) p place s = s := by
  unfold deadlineIf
  cases due : deadlineEntry (· == 0) p place s with
  | none => rfl
  | some e =>
    obtain ⟨get, k⟩ := deadlineEntry_zero.1 due
    exact absurd k (h e get)

theorem taken_deadlineIf {s : State} (writes : Writes s) (p : Port) (place : Nat) :
    Taken place (s.port p).pending ((deadlineIf (· == 0) p place s).port p).pending := by
  cases due : deadlineEntry (· == 0) p place s with
  | none =>
    have none_due : ∀ e, (s.port p).pending[place]? = some e → ¬ Due e := fun e get k => by
      rw [deadlineEntry_zero.2 ⟨get, k⟩] at due
      cases due
    exact .inr ⟨none_due, by rw [deadlineIf_of_notDue none_due]⟩
  | some e =>
    obtain ⟨get, k⟩ := deadlineEntry_zero.1 due
    have taken : deadlineIf (· == 0) p place s = dataDeadline p place e s := by rw [deadlineIf, due]
    obtain ⟨-, ⟨⟨w, served⟩, -⟩ | ⟨x, settled, same⟩⟩ := pending_deadlineSettled p place e s
    · exact absurd served (writes p e (List.mem_of_getElem? get) k.1 w)
    · exact .inl ⟨e, x, get, k, settled, by rw [taken, dataDeadline, pending_depart_self, same]⟩

theorem not_due_of_settled {x : Entry} (h : x.progress = .settled) : ¬ Due x := fun k => by
  have waits := k.1
  rw [h] at waits
  cases waits

theorem taken_beyond {place : Nat} {l m : List Entry} (h : Taken place l m) (beyond : l.length ≤ place) : m = l := by
  rcases h with ⟨e, x, get, -⟩ | ⟨-, rfl⟩
  · rw [List.getElem?_eq_none beyond] at get
    cases get
  · rfl

/-- What the first place of a list of at most one entry leaves is not due. -/
theorem taken_single {l m : List Entry} (h : Taken 0 l m) (short : l.length ≤ 1) :
    m.length ≤ 1 ∧ ∀ e ∈ m, ¬ Due e := by
  cases l with
  | nil => rw [taken_beyond h (Nat.le_refl _)]; simp
  | cons a rest =>
    have alone : rest = [] := by simpa using short
    subst alone
    rcases h with ⟨e, x, -, -, settled, rfl⟩ | ⟨fine, rfl⟩
    · simp [isSettled, settled]
    · refine ⟨short, fun e he => ?_⟩
      rw [List.mem_singleton.1 he]
      exact fine a rfl

theorem none_due_of_short {l m n : List Entry} (again : Taken 0 l m) (second : Taken 1 m n) (short : l.length ≤ 1) :
    ∀ e ∈ n, ¬ Due e := by
  obtain ⟨len, fine⟩ := taken_single again short
  rw [taken_beyond second len]
  exact fine

/-- The first place of a list of two entries: the second becomes the first, or the first is not due. -/
theorem taken_first {a b : Entry} {m : List Entry} (h : Taken 0 [a, b] m) :
    m.length ≤ 1 ∨ ¬ Due a ∧ m = [a, b] := by
  rcases h with ⟨e, x, -, -, settled, rfl⟩ | ⟨fine, rfl⟩
  · left
    have left : ([a, b].set 0 x).dropWhile isSettled = [b].dropWhile isSettled := by simp [isSettled, settled]
    rw [left]
    exact (List.dropWhile_sublist _).length_le
  · exact .inr ⟨fine a rfl, rfl⟩

/-- The second place of a list of two entries behind a first one that stays. -/
theorem none_due_of_second {a b : Entry} {m : List Entry} (front : a.progress ≠ .settled) (head : ¬ Due a)
    (h : Taken 1 [a, b] m) : ∀ e ∈ m, ¬ Due e := by
  rcases h with ⟨e, x, -, -, settled, rfl⟩ | ⟨rest, rfl⟩
  · have kept : ([a, b].set 1 x).dropWhile isSettled = [a, x] := by simp [isSettled, front]
    rw [kept]
    simpa using ⟨head, not_due_of_settled settled⟩
  · simpa using ⟨head, rest b rfl⟩

/-- After the deadline parts of a port none of its entries is due: a first entry that leaves makes the second one the
first. -/
theorem none_due_of_taken {l l1 l2 l3 : List Entry} (room : l.length ≤ 2) (front : FrontOk l) (first : Taken 0 l l1)
    (again : Taken 0 l1 l2) (second : Taken 1 l2 l3) : ∀ e ∈ l3, ¬ Due e := by
  by_cases short : l.length ≤ 1
  · exact none_due_of_short again second (taken_single first short).1
  · obtain ⟨a, b, rfl⟩ := List.length_eq_two.1 (by omega : l.length = 2)
    rcases taken_first first with short | ⟨head, rfl⟩
    · exact none_due_of_short again second short
    · rcases taken_first again with short | ⟨-, rfl⟩
      · rw [taken_beyond second short]
        rcases again with ⟨e, x, get, due, -⟩ | ⟨-, rfl⟩
        · cases get; exact absurd due head
        · simp at short
      · exact none_due_of_second (front a [b] rfl) head second

/-- The deadline parts of one port in a whole period. -/
def portParts (p : Port) : List LclkPart := [.deadline p 0, .deadline p 0, .deadline p 1]

theorem cleared_portParts {s : State} (h : InPlace s) (writes : Writes s) (p : Port) (due : Bool) :
    Cleared p ((portParts p).foldl Machine.runPart (s, due)).1 := by
  have writes1 := writes.waitsFrom (waitsFrom_deadlineIf (· == 0) p 0 s)
  have writes2 := writes1.waitsFrom (waitsFrom_deadlineIf (· == 0) p 0 _)
  exact none_due_of_taken (h.places.pending p) (h.front p) (taken_deadlineIf writes p 0) (taken_deadlineIf writes1 p 0)
    (taken_deadlineIf writes2 p 1)

/-- The parts of several ports clear each of them. -/
theorem cleared_portsParts {x : State × Bool} (h : InPlace x.1) (writes : Writes x.1) (l : List Port) :
    ∀ p ∈ l, Cleared p ((l.flatMap portParts).foldl Machine.runPart x).1 := by
  induction l generalizing x with
  | nil => intro p hp; cases hp
  | cons q l ih =>
    intro p hp
    rw [List.flatMap_cons, List.foldl_append]
    have place := h.runParts (portParts q)
    have still := writes.waitsFrom (waitsFrom_runParts (portParts q) x)
    rcases List.mem_cons.1 hp with rfl | hp
    · exact (cleared_portParts h writes p x.2).waitsFrom (waitsFrom_runParts _ _)
    · exact ih place still p hp

theorem wholePeriod_eq : wholePeriod = .tick :: allPorts.flatMap portParts := rfl

/-- A whole period leaves no data deadline due, whatever came before it. -/
theorem cleared_lclkPeriod {s : State} (h : InPlace s) (writes : Writes (countPeriod s)) (order : List LclkPart)
    (p : Port) : Cleared p (lclkPeriod order s) := by
  have counted := h.kept (keeps_countPeriod s).toKept
  rw [lclkPeriod, wholePeriod_eq, List.foldl_append, List.foldl_cons]
  have after := (counted.runParts (x := (countPeriod s, tickDue s)) order).runPart .tick
  have still := (writes.waitsFrom (waitsFrom_runParts order (countPeriod s, tickDue s))).waitsFrom
    (waitsFrom_runPart _ .tick)
  exact (cleared_portsParts after still allPorts p (mem_allPorts p)).waitsFrom (waitsFrom_grantDecision _)

end Sys2Proof.Periods
end

section
/-! PROOFS. LCLK periods with what falls due in them, in any order (spec/01 R6; spec/04 R69, R78). -/

namespace Sys2Proof.Periods
open Sys2Proof.Machine Sys2Proof.Safety Sys2Proof.Tables Sys2Proof.Ticks Sys2Proof.Keeping

/-! ## The row -/

theorem exec_lclkPeriod {s : State} (run : running s) (order : List LclkPart) :
    exec (.lclkPeriod order) s = .next (lclkPeriod order s) :=
  congrArg Host.Outcome.next (if_pos (Deadlines.clockActs_of_running run))

theorem tickDue_eq (s : State) : tickDue s = decide (tickNow s) := by
  rw [Bool.eq_iff_iff, decide_eq_true_iff]
  simp [tickDue]

/-- A period with the lists in their places is its parts in order. -/
theorem InPlace.lclkPeriod_eq {s : State} (h : InPlace s) (order : List LclkPart) :
    lclkPeriod order s =
      grantDecision (inOrder (order ++ everyPart) (decide (tickNow s)) (periodCounted s)) := by
  have counted := h.kept (keeps_countPeriod s).toKept
  rw [lclkPeriod, counted.runParts_eq, tickDue_eq, countPeriod_eq]
  rfl

/-! ## The counts -/

theorem port_countPeriod (s : State) (p : Port) : (countPeriod s).port p = (s.port p).countDown := by
  cases p <;> rfl

theorem mem_countPeriod {s : State} {p : Port} {x : Entry} (h : x ∈ ((countPeriod s).port p).pending) :
    ∃ e ∈ (s.port p).pending, x = e.countDown := by
  rw [port_countPeriod] at h
  obtain ⟨e, he, rfl⟩ := List.mem_map.1 h
  exact ⟨e, he, rfl⟩

theorem countDown_progress (e : Entry) : e.countDown.progress = e.progress := by
  unfold Entry.countDown
  split <;> rfl

theorem countDown_decision (e : Entry) : e.countDown.decision = e.decision := by
  unfold Entry.countDown
  split <;> rfl

theorem writes_countPeriod {s : State} (h : Writes s) : Writes (countPeriod s) := by
  intro p x hx waits w
  obtain ⟨e, he, rfl⟩ := mem_countPeriod hx
  rw [countDown_progress] at waits
  rw [countDown_decision]
  exact h p e he waits w

/-- Counts of at least 2 are not due after one period. -/
theorem cleared_countPeriod {s : State}
    (far : ∀ p, ∀ e ∈ (s.port p).pending, ∀ n, e.deadlineCount = some n → 2 ≤ n) (p : Port) :
    Cleared p (countPeriod s) := by
  rintro x hx ⟨waits, zero⟩
  obtain ⟨e, he, rfl⟩ := mem_countPeriod hx
  rw [countDown_progress] at waits
  have lowered : e.countDown.deadlineCount = e.deadlineCount.map (· - 1) := by simp [Entry.countDown, waits]
  rw [lowered] at zero
  obtain ⟨n, count, last⟩ := Option.map_eq_some_iff.1 zero
  have := far p e he n count
  omega

theorem clock_countPeriod (s : State) : (countPeriod s).clock = { s.clock with
    prescaler := if s.clock.run && !tickDue s then s.clock.prescaler + 1 else s.clock.prescaler } := rfl

/-- The counts make no source a candidate. -/
theorem noGrantDue_countPeriod {s : State} (h : noGrantDue s) : noGrantDue (countPeriod s) := by
  rcases h with h | h | h | ⟨scrub, ports⟩
  · exact .inl h
  · exact .inr (.inl h)
  · exact .inr (.inr (.inl h))
  · refine .inr (.inr (.inr ⟨scrub, fun p => ?_⟩))
    have same : portCandidate (countPeriod s) p = portCandidate s p := by
      simp only [portCandidate, port_countPeriod, Piu.countDown]
      cases (s.port p).pending with
      | nil => rfl
      | cons e es => simp only [List.map_cons, countDown_progress]
    rw [same]
    exact ports p

/-! ## The clock after a period -/

/-- Lease time, prescaler and period divisor change once, exactly where a tick is due. -/
theorem clock_lclkPeriod (order : List LclkPart) (s : State) : (lclkPeriod order s).clock = { s.clock with
    expiry := (lclkPeriod order s).clock.expiry
    time := if tickNow s then s.clock.time + 1 else s.clock.time
    periodDivisor := if tickNow s then s.clock.divisor else s.clock.periodDivisor
    prescaler := if tickNow s then 0 else if s.clock.run = true then s.clock.prescaler + 1
      else s.clock.prescaler } := by
  rw [lclkPeriod, clock_grantDecision]
  by_cases now : tickNow s
  · have due : tickDue s = true := by rw [tickDue_eq]; exact decide_eq_true now
    have ticked := clockTicked_runParts (parts := order ++ wholePeriod)
      (List.mem_append_right _ (by rw [wholePeriod_eq]; exact List.mem_cons_self)) (countPeriod s)
    rw [due]
    unfold ClockTicked at ticked
    rw [clock_countPeriod] at ticked
    simpa only [if_pos now] using ticked
  · have due : tickDue s = false := by rw [tickDue_eq]; exact decide_eq_false now
    have stands := clockStands_runParts (order ++ wholePeriod) (countPeriod s)
    rw [due]
    unfold ClockStands at stands
    rw [clock_countPeriod, due, Bool.not_false, Bool.and_true] at stands
    simpa only [if_neg now] using stands

/-! ## Periods in which no data deadline falls due -/

/-- Nothing is due but a tick. -/
structure Calm (s : State) : Prop where
  cleared : ∀ p, Cleared p s
  grant : noGrantDue s

theorem deadlineIf_of_cleared {s : State} {p : Port} (h : Cleared p s) (place : Nat) :
    deadlineIf (· == 0) p place s = s :=
  deadlineIf_of_notDue fun e get => h e (List.mem_of_getElem? get)

/-- Parts of a period in which nothing is due change nothing. -/
theorem Calm.runParts {s : State} (h : Calm s) (parts : List LclkPart) :
    parts.foldl Machine.runPart (s, false) = (s, false) := by
  induction parts with
  | nil => rfl
  | cons part parts ih =>
    have nothing : Machine.runPart (s, false) part = (s, false) := by
      cases part with
      | tick => rfl
      | deadline p place => exact congrArg (·, false) (deadlineIf_of_cleared (h.cleared p) place)
      | grant => exact congrArg (·, false) (grantDecision_of_noGrantDue h.grant)
    rw [List.foldl_cons, nothing, ih]

theorem grantDecision_twice (s : State) : grantDecision (grantDecision s) = grantDecision s :=
  grantDecision_of_noGrantDue (Bursts.noGrantDue_grantDecision s)

/-- After the tick only the grant decision is left. -/
theorem granted_runParts {s : State} (h : ∀ p, Cleared p s) (parts : List LclkPart) :
    grantDecision (parts.foldl Machine.runPart (s, false)).1 = grantDecision s := by
  induction parts generalizing s with
  | nil => rfl
  | cons part parts ih =>
    cases part with
    | tick => exact ih h
    | deadline p place =>
      have nothing : Machine.runPart (s, false) (.deadline p place) = (s, false) :=
        congrArg (·, false) (deadlineIf_of_cleared (h p) place)
      rw [List.foldl_cons, nothing]
      exact ih h
    | grant =>
      have after := ih fun p => (h p).waitsFrom (waitsFrom_grantDecision s)
      rw [grantDecision_twice] at after
      exact after

/-- Up to the tick nothing happens, and after it only the grant decision. -/
theorem Calm.ticked {s : State} (h : Calm s) {parts : List LclkPart} (tick : .tick ∈ parts) :
    grantDecision (parts.foldl Machine.runPart (s, true)).1 = grantDecision (leaseTick s) := by
  induction parts with
  | nil => cases tick
  | cons part parts ih =>
    cases part with
    | tick => exact granted_runParts (fun p => (h.cleared p).waitsFrom (waitsFrom_leaseTick s)) parts
    | deadline p place =>
      have nothing : Machine.runPart (s, true) (.deadline p place) = (s, true) :=
        congrArg (·, true) (deadlineIf_of_cleared (h.cleared p) place)
      rw [List.foldl_cons, nothing]
      exact ih (by simpa using tick)
    | grant =>
      have nothing : Machine.runPart (s, true) .grant = (s, true) :=
        congrArg (·, true) (grantDecision_of_noGrantDue h.grant)
      rw [List.foldl_cons, nothing]
      exact ih (by simpa using tick)

section Quiet
variable {s : State} (grant : noGrantDue s)
  (far : ∀ p, ∀ e ∈ (s.port p).pending, ∀ n, e.deadlineCount = some n → 2 ≤ n) (order : List LclkPart)
include grant far

theorem calm_countPeriod : Calm (countPeriod s) := ⟨cleared_countPeriod far, noGrantDue_countPeriod grant⟩

/-- A period in which nothing falls due changes the counts alone. -/
theorem lclkPeriod_of_calm (notNow : ¬ tickNow s) : lclkPeriod order s = periodCounted s := by
  have calm := calm_countPeriod grant far
  have due : tickDue s = false := by rw [tickDue_eq]; exact decide_eq_false notNow
  rw [lclkPeriod, due, calm.runParts, grantDecision_of_noGrantDue calm.grant, countPeriod_eq]

/-- A period that completes a tick period, no data deadline falling due, is the lease tick on the lowered counts. -/
theorem lclkPeriod_of_tick (now : tickNow s) : lclkPeriod order s = grantDecision (leaseTick (deadlinesLowered s)) := by
  have calm := calm_countPeriod grant far
  have due : tickDue s = true := by rw [tickDue_eq]; exact decide_eq_true now
  have counted : countPeriod s = deadlinesLowered s := by
    have stands : ¬ (s.clock.run = true ∧ ¬ tickNow s) := fun k => k.2 now
    rw [countPeriod_eq]
    simp only [periodCounted, if_neg stands]
    rfl
  rw [lclkPeriod, due, calm.ticked (List.mem_append_right _ (by rw [wholePeriod_eq]; exact List.mem_cons_self)), counted]

end Quiet

theorem port_deadlinesLowered (s : State) (p : Port) : (deadlinesLowered s).port p =
    { s.port p with pending := (s.port p).pending.map fun e =>
      if e.progress = .waitingData then { e with deadlineCount := e.deadlineCount.map (· - 1) } else e } := by
  cases p <;> rfl

/-- A tick that reaches no deadline advances lease time. -/
theorem leaseTick_of_unreached {s : State}
    (h : ∀ e es, s.clock.expiry = e :: es → deadlineReached (s.clock.time + 1) e.deadline = false) :
    leaseTick s = advanceTime s := by
  unfold leaseTick
  cases list : s.clock.expiry with
  | nil =>
    have none : (advanceTime s).clock.expiry = [] := list
    simp only [none, List.length_nil]
    rfl
  | cons e es =>
    have first : (advanceTime s).clock.expiry = e :: es := list
    have unreached : deadlineReached (advanceTime s).clock.time e.deadline = false := h e es list
    simp only [first, List.length_cons, expireReached, unreached]
    rfl

/-- Settles O32: the parts in order, what they leave due, their clock, and the periods in which no data deadline falls
due. -/
theorem lclkPeriodsAndTicksCount : Obligations.LclkPeriodsAndTicksCount := by
  refine ⟨fun order s run inv => ?_, fun order s t run inv writes h => ?_, fun order s run grant notNow far => ?_,
    fun order s run grant clocked period far => ?_, fun s run grant clocked period unreached => ?_, fun s notDue => ?_⟩
  · rw [exec_lclkPeriod run, (inPlace_of_invariants inv).lclkPeriod_eq]
  · rw [exec_lclkPeriod run] at h
    cases h
    refine ⟨fun p e he waits zero => ?_, clock_lclkPeriod order s⟩
    exact cleared_lclkPeriod (inPlace_of_invariants inv) (writes_countPeriod writes) order p e he ⟨waits, zero⟩
  · refine ⟨periodCounted s, by rw [exec_lclkPeriod run, lclkPeriod_of_calm grant far order notNow],
      port_deadlinesLowered s, rfl, ?_⟩
    have count : (s.clock.run = true ∧ ¬ tickNow s) ↔ s.clock.run = true := and_iff_left notNow
    simp only [periodCounted, count]
    rfl
  · have now : tickNow s := ⟨clocked, period⟩
    rw [exec_lclkPeriod run, lclkPeriod_of_tick grant far order now]
    exact (exec_leaseTick_due (s := deadlinesLowered s) run now).symm
  · rw [exec_leaseTick_due run ⟨clocked, period⟩, leaseTick_of_unreached unreached]
    have still : noGrantDue (advanceTime s) := grant
    rw [grantDecision_of_noGrantDue still]
    rfl
  · refine congrArg Host.Outcome.next (if_neg fun taken => notDue ?_)
    obtain ⟨acts, due⟩ := Bool.and_eq_true_iff.1 taken
    exact ⟨running_of_clockActs acts, tickNow_of_tickDue due⟩

end Sys2Proof.Periods
end

section
/-! PROOFS. Port resets (spec/01 R15, R16; spec/02 R46; spec/05 R106; spec/06 R118): the assertion of a line as one
record update. -/

namespace Sys2Proof.Lines
open Sys2Proof.Machine Sys2Proof.Safety Sys2Proof.Tables Sys2Proof.Keeping

/-! ## The assertion as a record update -/

/-- Emptying a stack, as one update of windows and stacks. -/
theorem emptyStack_record (p : Port) (s : State) : emptyStack p s = { s with
    scopes := s.scopes.set p []
    windows := Vector.ofFn fun i => { s.win i with
      scopeRefs := (s.win i).scopeRefs - (s.scopes.get p).countP (countsFor i) } } := by
  obtain ⟨scopes, win, rest⟩ := emptyStack_eq p s
  have windows : (emptyStack p s).windows = Vector.ofFn fun i => { s.win i with
      scopeRefs := (s.win i).scopeRefs - (s.scopes.get p).countP (countsFor i) } := by
    ext i hi
    rw [Vector.getElem_ofFn]
    exact win ⟨i, hi⟩
  rw [rest, scopes, windows]

/-- The entries an assertion discards, in the order in which their bindings end. -/
def discards (order : DiscardOrder) (u : Piu) : List Entry :=
  discardOrder order (u.pending.filter fun e => !e.underWay)

/-- The port with its line asserted, and the bindings of the discarded entries ended. -/
def cleared (p : Port) (order : DiscardOrder) (s : State) : State :=
  unboundAll (discards order (s.port p)) (s.setPort p (s.port p).resetLine)

/-- A window after an assertion: the live frames of the emptied stack count no longer. -/
def windowLeft (p : Port) (order : DiscardOrder) (s : State) (i : WinIdx) : Window :=
  { (cleared p order s).win i with
    scopeRefs := ((cleared p order s).win i).scopeRefs - (s.scopes.get p).countP (countsFor i) }

/-- What `lineAsserted` makes of the state with the port and its bindings cleared. -/
theorem lineAsserted_eq (p : Port) (order : DiscardOrder) (s : State) : lineAsserted p order s =
    { cleared p order s with
      requests := s.requests.filter fun r => r.port != p
      replies := s.replies.set p []
      tickets := s.tickets.set p 4
      scopes := s.scopes.set p []
      windows := Vector.ofFn (windowLeft p order s) } := by
  cases order <;> rfl

/-- The assertion of a line, block by block, is the record update `lineAsserted`. -/
theorem portReset_eq {s : State} (engine : engineMatches s) (p : Port) (order : DiscardOrder) :
    portReset p order s = lineAsserted p order s := by
  have others : cleared p order s = { s.setPort p (s.port p).resetLine with
      windows := (cleared p order s).windows, scrub := (cleared p order s).scrub } := Resets.unboundAll_eq _ _
  have released : portReset p order s = emptyStack p (dropRequests p (cleared p order s)) :=
    congrArg (fun t => emptyStack p (dropRequests p t))
      (releaseEntries_eq _ (s.setPort p (s.port p).resetLine) engine)
  rw [released, emptyStack_record, lineAsserted_eq]
  unfold windowLeft
  generalize cleared p order s = t at others
  rw [others]
  rfl

/-- The row of an assertion, after the events that meet it. -/
theorem exec_portResetAssert {s : State} {p : Port} (line : (s.port p).line = false) (order : ResetOrder) :
    exec (.portResetAssert p order) s =
      .next (grantDecision (portReset p order.discards (order.first.foldl (meetReset p) s))) :=
  congrArg Host.Outcome.next (if_neg (by rw [line]; decide))

/-! ## What an assertion leaves of a window -/

/-- Bindings that end leave a window that does not drain all but its count. -/
theorem win_unboundAll {i : WinIdx} (es : List Entry) {s : State} (h : (s.win i).phase ≠ .draining) :
    (unboundAll es s).win i = { s.win i with inFlight := (s.win i).inFlight - bound i es } := by
  induction es generalizing s with
  | nil => rfl
  | cons e es ih =>
    have one : (unboundFrom (boundWindow e) s).win i =
        { s.win i with inFlight := (s.win i).inFlight - ties (boundWindow e) i } := by
      cases bind : boundWindow e with
      | none => rfl
      | some j =>
        by_cases hj : i = j
        · subst hj
          have stays : ¬ ((s.win i).phase = .draining ∧ (s.win i).inFlight ≤ 1) := fun k => h k.1
          simp [unboundFrom, unbound, stays, ties]
        · have other : ¬ some j = some i := fun k => hj (Option.some.inj k).symm
          have turned : (s.setWin j { s.win j with inFlight := (s.win j).inFlight - 1 }).win i = s.win i :=
            State.win_setWin_ne _ _ hj
          simp only [unboundFrom, unbound, ties, if_neg other, Nat.sub_zero]
          split
          · rw [(turned_drained j _).other hj, turned]
          · exact turned
    have step : unboundAll (e :: es) s = unboundAll es (unboundFrom (boundWindow e) s) := rfl
    rw [step, ih (by rw [one]; exact h), one, bound_cons, Nat.sub_sub]

theorem win_grantDecision (i : WinIdx) (s : State) : (grantDecision s).win i = s.win i := by
  unfold grantDecision
  split
  · split
    · unfold startScrubBurst
      split <;> rfl
    · split
      · unfold startPortBurst
        split <;> rfl
      · rfl
  · rfl

/-- The discarded entries of a window are those that were bound to it. -/
theorem bound_discarded (i : WinIdx) (l : List Entry) :
    bound i (l.filter fun e => e.progress != .executing) = l.countP fun e => discardedBoundTo i e := by
  rw [bound, List.countP_filter]
  refine List.countP_congr fun e _ => ?_
  unfold discardedBoundTo boundWindow
  cases e.progress <;> cases e.decision <;> simp

theorem bound_discards (i : WinIdx) (order : DiscardOrder) (u : Piu) :
    bound i (discards order u) = u.pending.countP fun e => discardedBoundTo i e := by
  rw [← bound_discarded]
  cases order
  · rfl
  · exact List.countP_reverse

/-- What the assertion leaves of a window that does not drain. -/
theorem win_lineAsserted {s : State} {i : WinIdx} (p : Port) (order : DiscardOrder)
    (h : (s.win i).phase ≠ .draining) : (lineAsserted p order s).win i = { s.win i with
      inFlight := (s.win i).inFlight - (s.port p).pending.countP (fun e => discardedBoundTo i e)
      scopeRefs := (s.win i).scopeRefs - (s.scopes.get p).countP (countsFor i) } := by
  have windows : (lineAsserted p order s).windows = Vector.ofFn (windowLeft p order s) := by
    rw [lineAsserted_eq]
  have unbound : (cleared p order s).win i = { s.win i with
      inFlight := (s.win i).inFlight - (s.port p).pending.countP (fun e => discardedBoundTo i e) } := by
    rw [← bound_discards i order, cleared, win_unboundAll _ (by rw [State.win_setPort]; exact h), State.win_setPort]
  rw [State.win, windows, Fin.getElem_fin, Vector.getElem_ofFn, windowLeft, unbound]

/-! ## Assertions that discard the same -/

/-- A settled entry is bound to no window: it may be left out of those whose bindings end. -/
theorem unboundAll_unsettled (es : List Entry) (s : State) :
    unboundAll (es.filter fun e => e.progress != .settled) s = unboundAll es s := by
  induction es generalizing s with
  | nil => rfl
  | cons e es ih =>
    by_cases settled : e.progress = .settled
    · have free : boundWindow e = none := if_pos settled
      rw [List.filter_cons_of_neg (by simp [settled]), ih]
      exact (congrArg (fun b => unboundAll es (unboundFrom b s)) free).symm
    · rw [List.filter_cons_of_pos (by simp [settled])]
      exact ih _

theorem discards_unsettled (order : DiscardOrder) (u : Piu) :
    (discards order u).filter (fun e => e.progress != .settled) =
      discards order { u with pending := u.pending.filter fun e => e.progress != .settled } := by
  cases order
  · exact List.filter_comm _ _ _
  · exact (List.filter_reverse).trans (congrArg List.reverse (List.filter_comm _ _ _))

theorem resetLine_unsettled (u : Piu) :
    Piu.resetLine { u with pending := u.pending.filter fun e => e.progress != .settled } = u.resetLine := by
  have live : (u.pending.filter fun e => e.progress != .settled).filter Entry.underWay =
      u.pending.filter Entry.underWay := by
    rw [List.filter_filter]
    refine List.filter_congr fun e _ => ?_
    unfold Entry.underWay
    cases e.progress <;> rfl
  unfold Piu.resetLine
  simp only [live]

/-- A settled entry makes no difference to the port and the bindings that an assertion clears. -/
theorem cleared_unsettled (p : Port) (order : DiscardOrder) (s : State) (x : Piu) :
    cleared p order (s.setPort p { x with pending := x.pending.filter fun e => e.progress != .settled }) =
      cleared p order (s.setPort p x) := by
  unfold cleared
  rw [State.port_setPort_self, State.port_setPort_self, State.setPort_setPort, State.setPort_setPort,
    resetLine_unsettled, ← discards_unsettled, unboundAll_unsettled]

/-- The assertion makes no difference between ports with the same unsettled entries, arm and sent responses. -/
theorem lineAsserted_congr {p : Port} {order : DiscardOrder} {s : State} {x y : Piu}
    (live : (x.pending.filter fun e => e.progress != .settled) = y.pending.filter fun e => e.progress != .settled)
    (arm : x.arm = y.arm) (sent : x.sent = y.sent) :
    lineAsserted p order (s.setPort p x) = lineAsserted p order (s.setPort p y) := by
  have same : cleared p order (s.setPort p x) = cleared p order (s.setPort p y) := by
    rw [← cleared_unsettled p order s x, ← cleared_unsettled p order s y, live]
    unfold cleared discards Piu.resetLine
    simp only [State.port_setPort_self, State.setPort_setPort, arm, sent]
  have windows : windowLeft p order (s.setPort p x) = windowLeft p order (s.setPort p y) := by
    funext i
    unfold windowLeft
    rw [same]
    rfl
  rw [lineAsserted_eq, lineAsserted_eq, same, windows]
  rfl

end Sys2Proof.Lines
end

section
/-! PROOFS. What meets the assertion of a reset line (spec/01 R6, R12, R15; log 28): a data deadline and the last beat
of a control write, each settled before the assertion discards its entry. -/

namespace Sys2Proof.Lines
open Sys2Proof.Machine Sys2Proof.Safety Sys2Proof.Tables Sys2Proof.Keeping

/-! ## A port with another list and discard count -/

/-- Port `p` with the pending list `l` and the discard count `d`. -/
def relisted (p : Port) (l : List Entry) (d : Nat) (s : State) : State :=
  s.setPort p { s.port p with pending := l, discard := d }

theorem unboundFrom_relisted {s : State} (engine : engineMatches s) (b : Option WinIdx) (p : Port) (l : List Entry)
    (d : Nat) : unboundFrom b (relisted p l d s) = relisted p l d (unboundFrom b s) := by
  have same : engineMatches (relisted p l d s) := engine
  rw [← releaseBound_eq b _ same, ← releaseBound_eq b s engine, relisted, relisted, releaseBound_setPort,
    releaseBound_port]

/-- A fault event reads neither the list nor the discard count of its port. -/
theorem faultEvent_relisted (p : Port) (reason : Reason) (kind : FaultKind) (a : PortAddr) (w : Option WinIdx)
    (l : List Entry) (d : Nat) (s : State) : faultEvent p reason kind a w (relisted p l d s) =
      relisted p l d (faultEvent p reason kind a w s) := by
  rw [Faults.aFaultEventRecordsFlagsAndStops, Faults.aFaultEventRecordsFlagsAndStops]
  simp only [relisted, State.port_setPort_self, State.setPort_setPort]
  cases p <;> rfl

theorem engineMatches_unboundFrom {s : State} (engine : engineMatches s) (b : Option WinIdx) :
    engineMatches (unboundFrom b s) := by
  cases b with
  | none => exact engine
  | some i => exact engineMatches_unbound i s engine

theorem engineMatches_setEntry {s : State} (engine : engineMatches s) (p : Port) (place : Nat) (e : Entry) :
    engineMatches (setEntry p place e s) := engine

theorem engineMatches_faultEvent {s : State} (engine : engineMatches s) (p : Port) (reason : Reason)
    (kind : FaultKind) (a : PortAddr) (w : Option WinIdx) : engineMatches (faultEvent p reason kind a w s) := by
  rw [Faults.aFaultEventRecordsFlagsAndStops]
  exact engine

/-- A settled entry more and another discard count make no difference to the assertion. -/
theorem lineAsserted_relisted {p : Port} {order : DiscardOrder} {older younger : List Entry} {e : Entry}
    (settled : e.progress = .settled) (d d' : Nat) (s : State) :
    lineAsserted p order (relisted p (older ++ e :: younger) d s) =
      lineAsserted p order (relisted p (older ++ younger) d' s) :=
  lineAsserted_congr (by simp [settled]) rfl rfl

/-! ## A data deadline that meets the assertion -/

/-- An event that meets the assertion counts by what the assertion leaves of it. -/
theorem exec_portResetAssert_met {s t u : State} {p : Port} {meeting : ResetMeeting} {order : DiscardOrder}
    (line : (s.port p).line = false) (meets : meetReset p s meeting = t) (engine : engineMatches t)
    (same : lineAsserted p order t = lineAsserted p order u) :
    exec (.portResetAssert p ⟨[meeting], order⟩) s = .next (grantDecision (lineAsserted p order u)) := by
  rw [exec_portResetAssert line, ← same, ← portReset_eq engine, ← meets]
  rfl

section Deadline
variable {s : State} {p : Port} {q : Slot} {order : DiscardOrder}

theorem meetReset_deadline (run : running s) (standing : stands s p q) (waits : q.entry.progress = .waitingData)
    (count : q.entry.deadlineCount = some 1) :
    meetReset p s (.deadline q.older.length) = deadlineSettled p q.older.length q.entry s := by
  rw [meetReset, Deadlines.deadlineEntry_of_stands standing waits count (by decide)]
  exact if_pos (Deadlines.clockActs_of_running run)

/-- The entry answered at its deadline, its missing beats owed. -/
theorem setEntry_owing (standing : stands s p q) (e : Entry) (d : Nat) :
    setEntry p q.older.length e (s.setPort p { s.port p with discard := d }) =
      relisted p (q.older ++ e :: q.younger) d s := by
  have owed : stands (s.setPort p { s.port p with discard := d }) p q :=
    stands_of_pending standing (by rw [State.port_setPort_self])
  rw [setEntry_eq owed, State.port_setPort_self, State.setPort_setPort]
  rfl

variable (engine : engineMatches s) (line : (s.port p).line = false) (run : running s) (standing : stands s p q)
  (waits : q.entry.progress = .waitingData) (count : q.entry.deadlineCount = some 1)
include engine line run standing waits count

/-- A deadline that is a fault event, of an admitted write with its binding ended, is that event with the entry gone. -/
theorem exec_portResetAssert_faulted (kind : FaultKind) (bound : Option WinIdx)
    (outcome : ∀ t, deadlineOutcome p q.older.length q.entry t =
      faultEvent p .dataTimeout kind q.entry.access.address bound (releaseBound bound
        (setEntry p q.older.length (q.entry.settle (refusedResponse q.entry.access .dataTimeout)) t))) :
    exec (.portResetAssert p ⟨[.deadline q.older.length], order⟩) s = .next (grantDecision (lineAsserted p order
      (faultEvent p .dataTimeout kind q.entry.access.address bound
        (unboundFrom bound (relisted p (q.older ++ q.younger) (s.port p).discard s))))) := by
  have meets : meetReset p s (.deadline q.older.length) =
      relisted p (q.older ++ q.entry.settle (refusedResponse q.entry.access .dataTimeout) :: q.younger)
        ((s.port p).discard + q.entry.missing)
        (faultEvent p .dataTimeout kind q.entry.access.address bound (unboundFrom bound s)) := by
    rw [meetReset_deadline run standing waits count, deadlineSettled, outcome, setEntry_owing standing,
      releaseBound_eq bound (relisted p _ _ s) engine, unboundFrom_relisted engine, faultEvent_relisted]
  refine exec_portResetAssert_met line meets
    (engineMatches_faultEvent (engineMatches_unboundFrom engine bound) p _ _ _ _) ?_
  rw [unboundFrom_relisted engine, faultEvent_relisted]
  exact lineAsserted_relisted rfl _ _ _

theorem exec_portResetAssert_refused {reason : Reason} (decision : q.entry.decision = .refused reason) :
    exec (.portResetAssert p ⟨[.deadline q.older.length], order⟩) s = .next (grantDecision (lineAsserted p order
      (relisted p (q.older ++ q.younger) (s.port p).discard s))) := by
  have meets : meetReset p s (.deadline q.older.length) =
      relisted p (q.older ++ q.entry.settle (refusedResponse q.entry.access reason) :: q.younger)
        ((s.port p).discard + q.entry.missing) s := by
    rw [meetReset_deadline run standing waits count, deadlineSettled, deadlineOutcome, decision]
    exact setEntry_owing standing _ _
  exact exec_portResetAssert_met line meets engine (lineAsserted_relisted rfl _ _ _)

end Deadline

/-! ## A last beat that meets the assertion -/

theorem seq_lineAsserted (p : Port) (order : DiscardOrder) (s : State) : (lineAsserted p order s).seq = s.seq := by
  rw [lineAsserted_eq, cleared, Resets.unboundAll_eq]
  rfl

theorem seq_faultEvent (p : Port) (reason : Reason) (kind : FaultKind) (a : PortAddr) (w : Option WinIdx)
    (s : State) : (faultEvent p reason kind a w s).seq = s.seq := by
  rw [Faults.aFaultEventRecordsFlagsAndStops]
  rfl

theorem sent_faultEvent (p : Port) (reason : Reason) (kind : FaultKind) (a : PortAddr) (w : Option WinIdx)
    (s : State) : ((faultEvent p reason kind a w s).port p).sent = (s.port p).sent := by
  rw [Faults.aFaultEventRecordsFlagsAndStops, State.port_setPort_self]

theorem seq_setEntry (p : Port) (place : Nat) (e : Entry) (s : State) : (setEntry p place e s).seq = s.seq := rfl

theorem sent_setEntry (p : Port) (place : Nat) (e : Entry) (s : State) :
    ((setEntry p place e s).port p).sent = (s.port p).sent := by
  rw [setEntry, State.port_setPort_self]

/-- What the last beat of a control write leaves, before its response leaves: the sequencer and the responses sent
stand. -/
theorem carryRouted_stands (n : Nat) (p : Port) (place : Nat) (e : Entry) (w : Word) (s : State) :
    (carryRouted (ownerOf n) p place e w s).seq = s.seq ∧
      ((carryRouted (ownerOf n) p place e w s).port p).sent = (s.port p).sent ∧
      (engineMatches s → engineMatches (carryRouted (ownerOf n) p place e w s)) := by
  have owns := owns_ownerOf n p (e.kept ++ [w]) s
  unfold carryRouted settleRouted
  split
  · exact ⟨owns.seq, (sent_setEntry p place _ _).trans owns.sent, fun engine =>
      engineMatches_setEntry (owns.engine engine) p place _⟩
  · refine ⟨(seq_faultEvent p _ _ _ _ _).trans ((seq_setEntry p place _ _).trans owns.seq), ?_, fun engine =>
      engineMatches_faultEvent (engineMatches_setEntry (owns.engine engine) p place _) p _ _ _ _⟩
    exact (sent_faultEvent p _ _ _ _ _).trans ((sent_setEntry p place _ _).trans owns.sent)

/-- A departure makes no difference to the assertion but for the responses sent. -/
theorem lineAsserted_depart (p : Port) (order : DiscardOrder) (s : State) : lineAsserted p order
    ((depart p s).setPort p { (depart p s).port p with sent := (s.port p).sent }) = lineAsserted p order s := by
  have front (l : List Entry) : ((l.dropWhile isSettled).filter fun e => e.progress != .settled) =
      l.filter fun e => e.progress != .settled := by
    induction l with
    | nil => rfl
    | cons e l ih =>
      by_cases settled : e.progress = .settled
      · simpa [isSettled, settled] using ih
      · simp [isSettled, settled]
  have own : lineAsserted p order s = lineAsserted p order (s.setPort p (s.port p)) := by rw [State.setPort_port]
  rw [depart_eq, followed, State.setPort_setPort, State.port_setPort_self, own]
  exact lineAsserted_congr (front _) rfl rfl

/-- Under a burst the assertion leaves what the data beat leaves, with no response sent for it. -/
theorem exec_portResetAssert_lastBeat {s t : State} {p : Port} {n : Nat} {q : Slot} {kept : List Word} {w : Word}
    (order : DiscardOrder) (engine : engineMatches s) (line : (s.port p).line = false)
    (due : lastBeatDue s p n q kept) (busy : s.seq.burst.isSome = true) (beat : exec (.writeDataBeat p w) s = .next t) :
    exec (.portResetAssert p ⟨[.lastBeat w], order⟩) s =
      .next (lineAsserted p order (t.setPort p { t.port p with sent := (s.port p).sent })) := by
  have aperture : apertureWordOf q.entry.access = n := by
    obtain ⟨-, -, -, -, -, -, -, address, -⟩ := due
    simp only [apertureWordOf, address, Config.apertureBase]
    omega
  obtain ⟨seq, sent, matching⟩ := carryRouted_stands n p q.older.length q.entry w s
  generalize carried : carryRouted (ownerOf n) p q.older.length q.entry w s = c at seq sent matching
  have meets : meetReset p s (.lastBeat w) = c := by rw [meetReset_lastBeat w due, aperture, carried]
  have left : depart p c = t := by
    have quiet : grantDecision (depart p c) = depart p c :=
      grantDecision_of_noGrantDue (.inl (show c.seq.burst.isSome = true by rw [seq, busy]))
    rw [Requests.exec_writeDataBeat_of_lastBeatDue due, finishRouted, carried, quiet] at beat
    exact Host.Outcome.next.inj beat
  have still : grantDecision (lineAsserted p order c) = lineAsserted p order c :=
    grantDecision_of_noGrantDue (.inl (by rw [seq_lineAsserted, seq, busy]))
  rw [exec_portResetAssert_met line meets (matching engine) rfl, still, ← left, ← sent, lineAsserted_depart]

/-- Settles O5: the line's release, its assertion as one record update, and the events that meet it. -/
theorem portResets : Obligations.PortResets := by
  refine ⟨fun p s line => congrArg Host.Outcome.next (if_pos line), fun p order s engine line => ?_,
    fun p order s t i engine line phase step => ?_, fun p order s u q engine line run standing waits count cut => ?_,
    fun p order s t n q kept w engine line due busy beat =>
      exec_portResetAssert_lastBeat order engine line due busy beat⟩
  · exact (exec_portResetAssert line _).trans (by rw [← portReset_eq engine]; rfl)
  · have row : exec (.portResetAssert p ⟨[], order⟩) s = .next (grantDecision (portReset p order s)) :=
      exec_portResetAssert line _
    rw [row, portReset_eq engine] at step
    rw [← Host.Outcome.next.inj step, win_grantDecision, win_lineAsserted p order phase]
  · subst cut
    have faulted (kind : FaultKind) (bound : Option WinIdx) :=
      exec_portResetAssert_faulted (order := order) engine line run standing waits count kind bound
    exact ⟨fun addrs lanes trimmed bound decision => faulted .write bound fun t => by rw [deadlineOutcome, decision],
      fun decision => faulted .write none fun t => by rw [deadlineOutcome, decision]; rfl,
      fun decision => faulted .control none fun t => by rw [deadlineOutcome, decision]; rfl,
      fun reason decision => exec_portResetAssert_refused engine line run standing waits count decision⟩

end Sys2Proof.Lines
end
